-- ==== Sys2Proof/Word.lean ====
section
/-! DEFINITION. The word types of the engine (00_scope R9, 20_memory R80, R87 to R90). -/

namespace Sys2Proof

/-- One byte of system memory, of a segment or of entropy-coded data (20_memory R80, R83). -/
abbrev Byte := BitVec 8

/-- A 16-bit element: a sample, a coefficient, an RGB565 pixel or a DC predictor (20_memory R87). -/
abbrev Half := BitVec 16

/-- A register, an address, a stride or an ARGB8888 pixel (00_scope R9, 20_memory R89). -/
abbrev Word := BitVec 32

/-- The two pixel formats; a command bit 0 is RGB565 and 1 is ARGB8888 (20_memory R90). -/
inductive PixelFormat where
  | rgb565
  | argb8888
  deriving DecidableEq, Repr

end Sys2Proof
end

