-- ==== Sys2Proof/Syntax.lean ====
section
/-! DEFINITION. The commands of the engine, one constructor per row of spec/opcode_table.json (30_encoding R118). -/

namespace Sys2Proof

/-- A decoded command with its operand fields (30_encoding R111 to R119). The two-bit fields keep all four values,
because the decoder accepts them and the execution checks them (30_encoding R122, R125). -/
inductive Instr where
  /-- NOP, format N (40_control R145). -/
  | nop
  /-- RESET_DC, format N (40_control R146). -/
  | resetDc
  /-- RESTART, format N (42_entropy R197). -/
  | restart
  /-- LOAD_DQT, format N (41_tables R160). -/
  | loadDqt
  /-- LOAD_DHT, format N (41_tables R165). -/
  | loadDht
  /-- DECODE_BLOCK, format D: COMP, DCSEL, ACSEL (42_entropy R199). -/
  | decodeBlock (comp : BitVec 2) (dcsel : Bool) (acsel : Bool)
  /-- IDCT, format Q: QSEL, LSHIFT, RAW (43_idct R230). -/
  | idct (qsel : BitVec 2) (lshift : Bool) (raw : Bool)
  /-- UPSAMPLE, format U: HR, VR (44_color R260). -/
  | upsample (hr : BitVec 2) (vr : BitVec 2)
  /-- YCC2RGB, format Y: GRAY (44_color R264). -/
  | ycc2rgb (gray : Bool)
  /-- CVT565_8888, format N (45_pixel R290). -/
  | cvt565To8888
  /-- CVT8888_565, format N (45_pixel R292). -/
  | cvt8888To565
  /-- BLEND, format B: SFMT, DFMT (46_blend R310). -/
  | blend (sfmt : PixelFormat) (dfmt : PixelFormat)
  deriving DecidableEq, Repr

end Sys2Proof
end

