-- ==== Sys2Proof/WellFormed.lean ====
section
/-! DEFINITION. The commands with legal field values (30_encoding R122, R123). -/

namespace Sys2Proof

/-- A component or quantisation-slot field names one of the three places (30_encoding R122). -/
def legalIndex (f : BitVec 2) : Bool := f != 3#2

/-- An upsampling ratio field is 1 or 2 (30_encoding R115, R122). -/
def legalRatio (f : BitVec 2) : Bool := f == 1#2 || f == 2#2

/-- The command's field values are legal: executing it raises neither ILLEGAL nor SAMPLING (30_encoding R123). -/
def WellFormed : Instr → Bool
  | .nop => true
  | .resetDc => true
  | .restart => true
  | .loadDqt => true
  | .loadDht => true
  | .decodeBlock comp _ _ => legalIndex comp
  | .idct qsel _ _ => legalIndex qsel
  | .upsample hr vr => legalRatio hr && legalRatio vr
  | .ycc2rgb _ => true
  | .cvt565To8888 => true
  | .cvt8888To565 => true
  | .blend _ _ => true

end Sys2Proof
end

