-- ==== Sys2Proof/Decode.lean ====
section
/-! DEFINITION. The decoder of command words, total on all 2^32 words, and the encoder (30_encoding R110 to R126). -/

namespace Sys2Proof

/-- Why a word is no command (30_encoding R120, R121). Execution turns either into the error ILLEGAL. -/
inductive Reject where
  /-- OP is one of the reserved values of R120. -/
  | unknownOpcode (op : Byte)
  /-- A reserved bit of the opcode's format is 1 (R121). -/
  | reservedBits (w : Word)
  deriving DecidableEq, Repr

/-- The twelve opcodes of the map (30_encoding R118). -/
inductive Opcode where
  | nop | resetDc | restart | loadDqt | loadDht | decodeBlock | idct | upsample | ycc2rgb | cvt565To8888 | cvt8888To565
  | blend
  deriving DecidableEq, Repr

/-- The six formats (30_encoding R111). -/
inductive Format where
  | n | d | q | u | y | b
  deriving DecidableEq, Repr

/-- OP as the map gives it (30_encoding R118). -/
def opcodeByte : Opcode → Byte
  | .nop => 0x00
  | .resetDc => 0x01
  | .restart => 0x02
  | .loadDqt => 0x08
  | .loadDht => 0x09
  | .decodeBlock => 0x10
  | .idct => 0x20
  | .upsample => 0x30
  | .ycc2rgb => 0x38
  | .cvt565To8888 => 0x50
  | .cvt8888To565 => 0x51
  | .blend => 0x60

/-- The opcode an OP byte names, none for a reserved value (30_encoding R118, R120). -/
def opcodeOf (op : Byte) : Option Opcode :=
  if op = 0x00#8 then some .nop
  else if op = 0x01#8 then some .resetDc
  else if op = 0x02#8 then some .restart
  else if op = 0x08#8 then some .loadDqt
  else if op = 0x09#8 then some .loadDht
  else if op = 0x10#8 then some .decodeBlock
  else if op = 0x20#8 then some .idct
  else if op = 0x30#8 then some .upsample
  else if op = 0x38#8 then some .ycc2rgb
  else if op = 0x50#8 then some .cvt565To8888
  else if op = 0x51#8 then some .cvt8888To565
  else if op = 0x60#8 then some .blend
  else none

/-- The format of each opcode (30_encoding R118). -/
def formatOf : Opcode → Format
  | .nop => .n
  | .resetDc => .n
  | .restart => .n
  | .loadDqt => .n
  | .loadDht => .n
  | .decodeBlock => .d
  | .idct => .q
  | .upsample => .u
  | .ycc2rgb => .y
  | .cvt565To8888 => .n
  | .cvt8888To565 => .n
  | .blend => .b

/-- The reserved bits of a format, which must be 0 (30_encoding R111, R118, R121). -/
def reservedMask : Format → Word
  | .n => 0xFFFFFF00
  | .d => 0xFFFFCC00
  | .q => 0xFFFFCC00
  | .u => 0xFFFFF000
  | .y => 0xFFFFFE00
  | .b => 0xFFFFFC00

/-- A format bit as a pixel format (20_memory R90). -/
def pixelFormatOf (b : Bool) : PixelFormat := if b then .argb8888 else .rgb565

/-- A pixel format as its command bit (20_memory R90). -/
def pixelFormatBit : PixelFormat → Bool
  | .rgb565 => false
  | .argb8888 => true

/-- The operand fields of a word, by opcode (30_encoding R112 to R117). -/
def extract (w : Word) : Opcode → Instr
  | .nop => .nop
  | .resetDc => .resetDc
  | .restart => .restart
  | .loadDqt => .loadDqt
  | .loadDht => .loadDht
  | .decodeBlock => .decodeBlock (w.extractLsb' 8 2) (w.getLsbD 12) (w.getLsbD 13)
  | .idct => .idct (w.extractLsb' 8 2) (w.getLsbD 12) (w.getLsbD 13)
  | .upsample => .upsample (w.extractLsb' 8 2) (w.extractLsb' 10 2)
  | .ycc2rgb => .ycc2rgb (w.getLsbD 8)
  | .cvt565To8888 => .cvt565To8888
  | .cvt8888To565 => .cvt8888To565
  | .blend => .blend (pixelFormatOf (w.getLsbD 8)) (pixelFormatOf (w.getLsbD 9))

/-- The decoder (30_encoding R125): a command, or the reason the word is ILLEGAL. -/
def decode (w : Word) : Except Reject Instr :=
  match opcodeOf (w.extractLsb' 0 8) with
  | none => .error (.unknownOpcode (w.extractLsb' 0 8))
  | some op => if w &&& reservedMask (formatOf op) = 0#32 then .ok (extract w op) else .error (.reservedBits w)

/-- The opcode of a command (30_encoding R118). -/
def instrOpcode : Instr → Opcode
  | .nop => .nop
  | .resetDc => .resetDc
  | .restart => .restart
  | .loadDqt => .loadDqt
  | .loadDht => .loadDht
  | .decodeBlock _ _ _ => .decodeBlock
  | .idct _ _ _ => .idct
  | .upsample _ _ => .upsample
  | .ycc2rgb _ => .ycc2rgb
  | .cvt565To8888 => .cvt565To8888
  | .cvt8888To565 => .cvt8888To565
  | .blend _ _ => .blend

/-- A one-bit field at its place in the word. -/
def flagAt (b : Bool) (n : Nat) : Word := (BitVec.ofBool b).setWidth 32 <<< n

/-- A two-bit field at its place in the word. -/
def pairAt (f : BitVec 2) (n : Nat) : Word := f.setWidth 32 <<< n

/-- The operand fields of a command at their places (30_encoding R111, R126). -/
def operandBits : Instr → Word
  | .nop => 0
  | .resetDc => 0
  | .restart => 0
  | .loadDqt => 0
  | .loadDht => 0
  | .decodeBlock comp dcsel acsel => pairAt comp 8 ||| flagAt dcsel 12 ||| flagAt acsel 13
  | .idct qsel lshift raw => pairAt qsel 8 ||| flagAt lshift 12 ||| flagAt raw 13
  | .upsample hr vr => pairAt hr 8 ||| pairAt vr 10
  | .ycc2rgb gray => flagAt gray 8
  | .cvt565To8888 => 0
  | .cvt8888To565 => 0
  | .blend sfmt dfmt => flagAt (pixelFormatBit sfmt) 8 ||| flagAt (pixelFormatBit dfmt) 9

/-- The encoder (30_encoding R126): the word a host writes to CMD for a command. -/
def encode (i : Instr) : Word := (opcodeByte (instrOpcode i)).setWidth 32 ||| operandBits i

/-- The decoder's answer for the opcode table's bits: a command is one 32-bit word, numbered as the table numbers it
(30_encoding R110), and bits above `nbits` are 0. -/
def decodeTableWord (nbits w : Nat) : Option Instr :=
  match decode (BitVec.ofNat 32 (w % 2 ^ nbits)) with
  | .ok i => some i
  | .error _ => none

end Sys2Proof
end

