-- ==== Sys2Proof/Config.lean ====
section
/-! DEFINITION. What an implementation or a platform fixes (00_scope R10, R11), the shapes of the table slots
(10_state R55, R56), and the free values of what the spec leaves unspecified (93 U1 to U6). -/

namespace Sys2Proof

/-- How a 5- or 6-bit channel becomes 8 bits (00_scope R11, 20_memory R94). -/
inductive Rgb565Expand where
  | replicate
  | shift
  deriving DecidableEq, Repr

/-- The inverse-DCT kernel; CW11 is the only one the spec defines (43_idct R234). -/
inductive IdctKernel where
  | cw11
  deriving DecidableEq, Repr

/-- The colour conversion's coefficients, with 8 fraction bits (44_color R266). -/
structure YccCoef where
  crR : Int
  cbG : Int
  crG : Int
  cbB : Int
  deriving DecidableEq, Repr

/-- A stretch of the platform's address map that answers engine accesses of the listed sizes (20_memory R81).
`sideEffects` tells memory the engine must not be pointed at (20_memory R95). -/
structure Region where
  base : Nat
  size : Nat
  accessSizes : List Nat
  sideEffects : Bool
  deriving DecidableEq, Repr

/-- The parameters of one machine: the two OPEN ones of 00_scope R10 (`engineBase`, and `memMap` for MemOK) and the
four configuration fields of R11. -/
structure Config where
  engineBase : Word
  memMap : List Region
  kernel : IdctKernel
  clipLo : Int
  clipHi : Int
  ycc : YccCoef
  expand : Rgb565Expand
  deriving DecidableEq, Repr

/-- The parameters State.reset carries: the defaults of 00_scope R11, and for the two OPEN parameters a window at the
top of the address space and memory that answers everywhere else (DESIGN CHOICE, unsafe: log 3). -/
def Config.initial : Config where
  engineBase := 0xFFFFF000
  memMap := [⟨0, 2 ^ 32, [1, 2, 4], false⟩]
  kernel := .cw11
  clipLo := -256
  clipHi := 511
  ycc := ⟨359, 88, 183, 454⟩
  expand := .replicate

/-- One quantisation slot's 64 entries, in zig-zag order (10_state R55). -/
abbrev QuantTable := Vector Byte 64

/-- What a Huffman slot holds for one code length (10_state R56, 41_tables R167). -/
structure CodeRow where
  count : Byte
  mincode : Nat
  maxcode : Int
  valptr : Nat
  deriving DecidableEq, Repr, Inhabited

/-- One Huffman slot: a row for each code length 1 to 16, and the defined symbols in segment order (10_state R56). -/
structure HuffTable where
  rows : Vector CodeRow 16
  values : List Byte
  deriving DecidableEq, Repr, Inhabited

/-- The free bytes a failed or aborted command leaves in its write set (93 U1, U6; log 7). -/
opaque Config.freeByte : Nat → Byte

/-- The free predictor a failed DECODE_BLOCK leaves (93 U2; log 7). -/
opaque Config.freeHalf : Nat → Half

/-- The free bit-reader address a failed DECODE_BLOCK leaves (93 U3; log 7). -/
opaque Config.freeWord : Nat → Word

/-- The free bit count, 0 to 8, a failed DECODE_BLOCK leaves (93 U3; log 7). -/
opaque Config.freeBitCount : Nat → Fin 9

/-- The free contents of a quantisation slot whose load failed, or after a reset (93 U4, U5; log 7). -/
opaque Config.freeQuant : Nat → QuantTable

/-- The free contents of a Huffman slot whose load failed, or after a reset (93 U4, U5; log 7). -/
opaque Config.freeHuff : Nat → HuffTable

end Sys2Proof
end

