-- ==== Sys2Proof/Machine/State.lean ====
section
/-! DEFINITION. The machine's state as plain data, the ways a step can stop, and the state after reset
(10_state, 70_reset R372). -/

namespace Sys2Proof.Machine

/-- System memory: the bytes that differ from what an unlisted address reads as, by rising address (20_memory R80). -/
abbrev Memory := List Host.Cell

/-- One move of the two agents (00_scope R7, R8). The host's script of moves is an input of the machine (log 1). -/
inductive Turn where
  /-- The engine takes its step, if one is enabled (40_control R141). -/
  | engine
  /-- The host reads `size` bytes at `addr` (20_memory R80, R85). -/
  | read (addr : Word) (size : Nat)
  /-- The host writes the low `size` bytes of `value` at `addr` (20_memory R80, R85). -/
  | write (addr : Word) (size : Nat) (value : Nat)
  /-- The platform's reset input (70_reset R370). -/
  | hardwareReset
  deriving DecidableEq, Repr

/-- The twelve error codes (60_exceptions R331). -/
inductive ErrCode where
  | illegal | align | bus | segLength | tableSpec | huffTable | noTable | huffCode | coef | trunc | marker | sampling
  deriving DecidableEq, Repr

/-- The whole state: the platform's parameters, the register window, the internal state, system memory, and the
model's own host script, last host read and draw counter. -/
structure State where
  /-- Parameters of the machine, constant (00_scope R10, R11). -/
  cfg : Config
  /-- CTRL bit 0 (10_state R35). -/
  doneIe : Bool
  /-- CTRL bit 1 (10_state R35). -/
  errIe : Bool
  /-- STATUS bit 0 (10_state R37). -/
  busy : Bool
  /-- STATUS bit 1 (10_state R38). -/
  done : Bool
  /-- STATUS bit 2 (10_state R39). -/
  err : Bool
  /-- STATUS bit 3 (10_state R40). -/
  werr : Bool
  /-- STATUS bits 11:8 (10_state R39). -/
  errcode : BitVec 4
  /-- The last accepted command word (10_state R41). -/
  cmd : Word
  /-- RESULT (10_state R42). -/
  result : Word
  /-- ERR_ADDR (10_state R43). -/
  errAddr : Word
  /-- SRC_ADDR (10_state R45). -/
  srcAddr : Word
  /-- SRC_STRIDE (10_state R46). -/
  srcStride : Word
  /-- DST_ADDR (10_state R45). -/
  dstAddr : Word
  /-- DST_STRIDE (10_state R46). -/
  dstStride : Word
  /-- AUX_ADDR, the Cb plane (10_state R45). -/
  auxAddr : Word
  /-- AUX2_ADDR, the Cr plane (10_state R45). -/
  aux2Addr : Word
  /-- AUX_STRIDE, of both chroma planes (10_state R46). -/
  auxStride : Word
  /-- DIM: WIDTH in bits 15:0, HEIGHT in bits 31:16 (10_state R47). -/
  dim : Word
  /-- BS_ADDR, the next entropy-coded byte (10_state R48). -/
  bsAddr : Word
  /-- BS_END, exclusive (10_state R49). -/
  bsEnd : Word
  /-- BITBUF, the last byte fetched (10_state R50). -/
  bitbuf : Byte
  /-- BITCNT, the bits of BITBUF not yet consumed (10_state R51). -/
  bitcnt : Nat
  /-- PRED[0..2], signed 16-bit (10_state R57). -/
  pred : Vector Half 3
  /-- QV[0..2] (10_state R55). -/
  qv : Vector Bool 3
  /-- QT[0..2] (10_state R55). -/
  qt : Vector QuantTable 3
  /-- HV[0..3] (10_state R56). -/
  hv : Vector Bool 4
  /-- HT[0..3]: DC 0, DC 1, AC 0, AC 1 (10_state R56). -/
  ht : Vector HuffTable 4
  /-- System memory (20_memory R80). -/
  mem : Memory
  /-- MODEL'S OWN: the moves still to come (log 1). -/
  turns : List Turn
  /-- MODEL'S OWN: what the host's last read returned (log 13). -/
  hostData : Nat
  /-- MODEL'S OWN: how many free values have been drawn (log 7). -/
  draws : Nat
  deriving DecidableEq, Repr

/-- Model faults (70_reset R385). A run that meets one has ended: the fault is sticky and never final (log 11). -/
inductive Fault where
  /-- Raised by the engine step of a command whose reads and writes share a byte (70_reset R381). Safe: a chip would go
  on with some racing value. -/
  | hazardOverlap
  /-- Raised by a host step that touches the running command's footprint (70_reset R382). Safe: a chip would go on with
  some racing value. -/
  | hazardHostAccess
  /-- Raised by an engine step that reaches memory with side effects (20_memory R95, 70_reset R385). Safe: a chip would
  go on. -/
  | hazardSideEffect
  deriving DecidableEq, Repr

/-- Moves the model gives no meaning. -/
inductive Refusal where
  /-- Raised by an arm of exec whose command is not modelled yet. Safe. No arm does: every command has its meaning. -/
  | notModelled (mnemonic : String)
  /-- Raised by a host access to the register window that is not 32 bits wide and 4-aligned (20_memory R85,
  60_exceptions R338). Safe: the platform answers with a bus error of its own. -/
  | registerAccess (addr : Word) (size : Nat)
  deriving DecidableEq, Repr

/-- What one step answers. -/
abbrev Answer := Host.Outcome State Fault Refusal

/-- The contents State.reset gives every Huffman slot; unspecified and unreadable in the spec (70_reset R372; DESIGN
CHOICE, log 6). -/
def emptyHuffTable : HuffTable where
  rows := Vector.replicate 16 ⟨0, 0, -1, 0⟩
  values := []

/-- The machine right after reset (70_reset R370, R372), with nothing listed in memory and no host move to come. -/
def State.reset : State where
  cfg := Config.initial
  doneIe := false
  errIe := false
  busy := false
  done := false
  err := false
  werr := false
  errcode := 0
  cmd := 0
  result := 0
  errAddr := 0
  srcAddr := 0
  srcStride := 0
  dstAddr := 0
  dstStride := 0
  auxAddr := 0
  aux2Addr := 0
  auxStride := 0
  dim := 0
  bsAddr := 0
  bsEnd := 0
  bitbuf := 0
  bitcnt := 0
  pred := Vector.replicate 3 0
  qv := Vector.replicate 3 false
  qt := Vector.replicate 3 (Vector.replicate 64 0)
  hv := Vector.replicate 4 false
  ht := Vector.replicate 4 emptyHuffTable
  mem := []
  turns := []
  hostData := 0
  draws := 0

end Sys2Proof.Machine
end

