-- ==== Sys2Proof/Machine/Flags.lean ====
section
/-! DEFINITION. The flags and status words: error codes, the words a host reads for CTRL, STATUS and TBL_VALID, the
write-1-to-clear rule, and the interrupt output (10_state R35 to R44, R60, R61). -/

namespace Sys2Proof.Machine

/-- The code ERRCODE holds for each error (60_exceptions R331). -/
def errBits : ErrCode → BitVec 4
  | .illegal => 1
  | .align => 2
  | .bus => 3
  | .segLength => 4
  | .tableSpec => 5
  | .huffTable => 6
  | .noTable => 7
  | .huffCode => 8
  | .coef => 9
  | .trunc => 10
  | .marker => 11
  | .sampling => 12

/-- CTRL as the host reads it: SOFT_RESET and the reserved bits read 0 (10_state R35). -/
def ctrlWord (s : State) : Word := 0#30 ++ BitVec.ofBool s.errIe ++ BitVec.ofBool s.doneIe

/-- STATUS as the host reads it (10_state R36). -/
def statusWord (s : State) : Word :=
  0#20 ++ s.errcode ++ 0#4 ++ BitVec.ofBool s.werr ++ BitVec.ofBool s.err ++ BitVec.ofBool s.done ++ BitVec.ofBool s.busy

/-- TBL_VALID as the host reads it: QV[0..2] in bits 2:0, HV[0..3] in bits 7:4 (10_state R44). -/
def tblValidWord (s : State) : Word :=
  0#24 ++ BitVec.ofBool s.hv[3] ++ BitVec.ofBool s.hv[2] ++ BitVec.ofBool s.hv[1] ++ BitVec.ofBool s.hv[0] ++ 0#1
    ++ BitVec.ofBool s.qv[2] ++ BitVec.ofBool s.qv[1] ++ BitVec.ofBool s.qv[0]

/-- The interrupt output (10_state R60, 60_exceptions R340). -/
def irq (s : State) : Bool := (s.done && s.doneIe) || (s.err && s.errIe)

/-- A host write to STATUS: a 1 clears DONE, ERR or WERR; ERRCODE goes to 0 with ERR (10_state R36, R39). -/
def State.clearFlags (s : State) (v : Word) : State :=
  { s with
    done := s.done && !v.getLsbD 1
    err := s.err && !v.getLsbD 2
    errcode := if v.getLsbD 2 then 0#4 else s.errcode
    werr := s.werr && !v.getLsbD 3 }

end Sys2Proof.Machine
end

