-- ==== Sys2Proof/Machine/Ops.lean ====
section
/-! DEFINITION. The named operations over memory and state: bytes and elements of system memory, MemOK, the access list
of a command and its hazards, acceptance, completion, raising an error, and the free values (00_scope R13 to R18,
20_memory R80 to R108, 40_control R140 to R144, 60_exceptions R330 to R333). -/

namespace Sys2Proof.Machine

/-! ### Plain arithmetic (00_scope R13, R14) -/

/-- `clamp(v, lo, hi) = min(hi, max(lo, v))` (00_scope R13). -/
def clamp (v lo hi : Int) : Int := min hi (max lo v)

/-- `sat16` (00_scope R13). -/
def sat16 (v : Int) : Int := clamp v (-32768) 32767

/-! ### Bytes of system memory -/

/-- What a byte nothing has written reads as (DESIGN CHOICE, unsafe: log 5). -/
def unlistedByte : Byte := 0#8

/-- The byte at an address. -/
def Memory.readByte : Memory → Nat → Byte
  | [], _ => unlistedByte
  | (k, b) :: m, a => if a = k then b else Memory.readByte m a

/-- Write one byte, keeping the canonical form: rising addresses and no entry equal to the unlisted byte. -/
def Memory.writeByte : Memory → Nat → Byte → Memory
  | [], a, v => if v = unlistedByte then [] else [(a, v)]
  | (k, b) :: m, a, v =>
    if a < k then (if v = unlistedByte then (k, b) :: m else (a, v) :: (k, b) :: m)
    else if a = k then (if v = unlistedByte then m else (a, v) :: m)
    else (k, b) :: Memory.writeByte m a v

/-- From `lo` on, the addresses rise strictly, lie in the 32-bit space, and no entry equals the unlisted byte. -/
def Memory.risingFrom : Nat → Memory → Bool
  | _, [] => true
  | lo, (k, b) :: m => decide (lo ≤ k) && decide (k < 2 ^ 32) && b != unlistedByte && Memory.risingFrom (k + 1) m

/-- The canonical form of memory. -/
def Memory.wf (m : Memory) : Bool := Memory.risingFrom 0 m

/-- The `n` bytes from `a`, little-endian, as a number; addresses wrap modulo 2^32 (00_scope R16, 20_memory R82, R108). -/
def Memory.load (m : Memory) : Nat → Word → Nat
  | 0, _ => 0
  | n + 1, a => (Memory.readByte m a.toNat).toNat + 256 * Memory.load m n (a + 1#32)

/-- Write the low `8·n` bits of `v` to the `n` bytes from `a`, little-endian (00_scope R16, 20_memory R82, R108). -/
def Memory.store : Memory → Nat → Word → Nat → Memory
  | m, 0, _, _ => m
  | m, n + 1, a, v => Memory.store (Memory.writeByte m a.toNat (BitVec.ofNat 8 v)) n (a + 1#32) (v / 256)

/-! ### The platform's answer to an engine access (20_memory R81, R95) -/

/-- The address lies in the engine's own register window (10_state R32). -/
def inWindow (c : Config) (a : Word) : Bool := decide ((a - c.engineBase).toNat < 0x1000)

/-- The addresses of the `n` bytes from `a`, modulo 2^32 (20_memory R108). -/
def bytesFrom (a : Word) : Nat → List Word
  | 0 => []
  | n + 1 => a :: bytesFrom (a + 1#32) n

/-- A region answers an access of `n` bytes at `a`. -/
def regionCovers (a : Word) (n : Nat) (r : Region) : Bool :=
  decide (r.base ≤ a.toNat) && decide (a.toNat + n ≤ r.base + r.size) && r.accessSizes.contains n

/-- How the platform answers an engine access. -/
inductive Response where
  | normal
  | busError
  | sideEffects
  deriving DecidableEq, Repr

/-- The answer to an access of `n` bytes at `a`: MemOK false inside the engine's own window and wherever no region
answers (20_memory R81); memory with side effects is told apart (20_memory R95; log 12). -/
def respond (c : Config) (a : Word) (n : Nat) : Response :=
  if (bytesFrom a n).any (inWindow c) then .busError
  else match c.memMap.find? (regionCovers a n) with
    | none => .busError
    | some r => if r.sideEffects then .sideEffects else .normal

/-- The platform predicate MemOK (00_scope R10, 20_memory R81). -/
def memOK (c : Config) (a : Word) (n : Nat) : Bool := respond c a n != .busError

/-! ### Acceptance, completion and errors -/

/-- Acceptance of a command word (40_control R140). -/
def State.accept (s : State) (w : Word) : State :=
  { s with cmd := w, busy := true, done := false, err := false, errcode := 0, result := 0, errAddr := 0 }

/-- `complete(v)` (40_control R144). -/
def State.complete (s : State) (v : Word) : State :=
  { s with busy := false, done := true, result := v }

/-- `raise CmdError(code, addr)`: what stands in for taking an exception (60_exceptions R330, R335). The way back is a
host step: `State.clearFlags`, or the next acceptance (R336). -/
def State.raise (s : State) (code : ErrCode) (addr : Word) : State :=
  { s with busy := false, err := true, errcode := errBits code, errAddr := addr }

/-- What ends a command's body before it completes. -/
inductive Stop where
  /-- A command error with its ERR_ADDR (60_exceptions R331). -/
  | error (code : ErrCode) (addr : Word)
  /-- The access at `addr` reached memory with side effects (20_memory R95). -/
  | sideEffect (addr : Word)
  deriving DecidableEq, Repr

/-- End a command whose body stopped: `s` is the state the stop leaves, before STATUS and ERR_ADDR are written. -/
def stopWith : Stop → State → Answer
  | .error code addr, s => .next (s.raise code addr)
  | .sideEffect _, _ => .fault .hazardSideEffect

/-- The outcome of a command's prologue (40_control R142). -/
inductive Prologue where
  | pass
  /-- A zero area completes at once (40_control R143). -/
  | zeroArea
  | error (code : ErrCode) (addr : Word)
  deriving DecidableEq, Repr

/-- Run a command's body after its prologue; a failing check leaves all other state unchanged (40_control R142,
60_exceptions R333). -/
def afterPrologue (p : Prologue) (s : State) (body : Answer) : Answer :=
  match p with
  | .pass => body
  | .zeroArea => .next (s.complete 0#32)
  | .error code addr => .next (s.raise code addr)

/-! ### Access lists and hazards (20_memory R100, 70_reset R381) -/

/-- What an access does: `modify` is BLEND's read of the destination element that the same pixel step writes
(46_blend R317). -/
inductive AccessKind where
  | read
  | modify
  | write
  deriving DecidableEq, Repr

/-- One engine access: its element, and the number of the pixel step it belongs to. -/
structure Access where
  kind : AccessKind
  addr : Word
  size : Nat
  step : Nat
  deriving DecidableEq, Repr

/-- The access writes. -/
def Access.isWrite (x : Access) : Bool := x.kind == .write

/-- The access touches this byte (20_memory R108). -/
def Access.covers (x : Access) (a : Word) : Bool := decide ((a - x.addr).toNat < x.size)

/-- Two accesses share a byte. -/
def Access.meets (x y : Access) : Bool := (bytesFrom x.addr x.size).any y.covers

/-- A read and a write that make the overlap hazard: they share a byte and are not one pixel step's read-modify-write
(70_reset R381). -/
def clash (r w : Access) : Bool :=
  !r.isWrite && w.isWrite && r.meets w && !(r.kind == .modify && r.step == w.step)

/-- The accesses break the footprint rule (70_reset R381; log 9). -/
def overlapping (xs : List Access) : Bool := xs.any fun r => xs.any fun w => clash r w

/-- Perform a list of accesses in order against the platform: those that succeed, and the stop at the first that does
not (20_memory R100, 60_exceptions R332). -/
def survey (c : Config) : List Access → List Access × Option Stop
  | [] => ([], none)
  | x :: xs =>
    match respond c x.addr x.size with
    | .normal => (x :: (survey c xs).1, (survey c xs).2)
    | .busError => ([], some (.error .bus x.addr))
    | .sideEffects => ([], some (.sideEffect x.addr))

/-- Run a body whose remaining accesses are the list `plan`, after the accesses `before`: it answers `finished` if all
are performed, and stops in `stopped` at the first that fails; a footprint overlap among the accesses performed is a
model fault (70_reset R381, R385). -/
def perform (s : State) (before plan : List Access) (finished stopped : State) : Answer :=
  if overlapping (before ++ (survey s.cfg plan).1) then .fault .hazardOverlap
  else match (survey s.cfg plan).2 with
    | none => .next finished
    | some stop => stopWith stop stopped

/-- Read one byte for a segment or the bit reader, or stop (00_scope R16). -/
def fetch (s : State) (a : Word) : Except Stop Byte :=
  match respond s.cfg a 1 with
  | .normal => .ok (Memory.readByte s.mem a.toNat)
  | .busError => .error (.error .bus a)
  | .sideEffects => .error (.sideEffect a)

/-! ### Free values (93 U1 to U6; log 7) -/

/-- Leave a free value in each listed byte. -/
def State.drawBytes : List Word → State → State
  | [], s => s
  | a :: as, s =>
    State.drawBytes as
      { s with mem := Memory.writeByte s.mem a.toNat (Config.freeByte s.draws), draws := s.draws + 1 }

/-- The bytes of a list of accesses that it writes: a command's write set (00_scope R20). -/
def writeBytes (xs : List Access) : List Word :=
  (xs.filter Access.isWrite).flatMap fun x => bytesFrom x.addr x.size

/-- Leave a free value in each element of the write set of a plan (60_exceptions R333, 70_reset R371; log 8). -/
def State.drawWrites (s : State) (plan : List Access) : State := State.drawBytes (writeBytes plan) s

/-! ### Internal registers -/

/-- Clear all predictors (40_control R146). -/
def State.clearPred (s : State) : State := { s with pred := Vector.replicate 3 0#16 }

/-- Set PRED[c]. -/
def State.setPred (s : State) (c : Fin 3) (v : Half) : State := { s with pred := s.pred.set c v }

/-- Set the bit reader's cursor (10_state R58). -/
def State.setReader (s : State) (addr : Word) (buf : Byte) (cnt : Nat) : State :=
  { s with bsAddr := addr, bitbuf := buf, bitcnt := cnt }

/-- Set system memory. -/
def State.setMem (s : State) (m : Memory) : State := { s with mem := m }

/-- Commit a quantisation slot: its entries, and its valid bit (41_tables R161). -/
def State.setQuant (s : State) (q : Fin 3) (t : QuantTable) : State :=
  { s with qt := s.qt.set q t, qv := s.qv.set q true }

/-- A quantisation slot whose load failed: invalid, contents free (41_tables R161, 60_exceptions R333). -/
def State.dropQuant (s : State) (q : Fin 3) : State :=
  { s with qt := s.qt.set q (Config.freeQuant s.draws), qv := s.qv.set q false, draws := s.draws + 1 }

/-- Commit a Huffman slot (41_tables R166). -/
def State.setHuff (s : State) (h : Fin 4) (t : HuffTable) : State :=
  { s with ht := s.ht.set h t, hv := s.hv.set h true }

/-- A Huffman slot whose load failed: invalid, contents free (41_tables R166, 60_exceptions R333). -/
def State.dropHuff (s : State) (h : Fin 4) : State :=
  { s with ht := s.ht.set h (Config.freeHuff s.draws), hv := s.hv.set h false, draws := s.draws + 1 }

/-- The predictor and the bit reader after a DECODE_BLOCK body error: free within their ranges (60_exceptions R333). -/
def State.drawEntropy (s : State) (c : Fin 3) : State :=
  { s with
    pred := s.pred.set c (Config.freeHalf s.draws)
    bsAddr := Config.freeWord s.draws
    bitbuf := Config.freeByte s.draws
    bitcnt := (Config.freeBitCount s.draws).val
    draws := s.draws + 1 }

end Sys2Proof.Machine
end

