-- ==== Sys2Proof/Machine/Operands.lean ====
section
/-! DEFINITION. Operand forms: DIM, element addresses, alignment checks, table slots, pixel formats and the rectangle
shared by the pixel commands (00_scope R18, 20_memory R84 to R94, 30_encoding R119, 40_control R143). -/

namespace Sys2Proof.Machine

/-- DIM.WIDTH (10_state R47). -/
def width (s : State) : Nat := (s.dim.extractLsb' 0 16).toNat

/-- DIM.HEIGHT (10_state R47). -/
def height (s : State) : Nat := (s.dim.extractLsb' 16 16).toNat

/-- `Elem(base, stride, row, col, esz)`, modulo 2^32 (00_scope R18). -/
def elem (base stride : Word) (row col esz : Nat) : Word :=
  base + BitVec.ofNat 32 row * stride + BitVec.ofNat 32 (col * esz)

/-- The first register value, in order, that is not a multiple of its element size (20_memory R84). -/
def misaligned : List (Word × Nat) → Option Word
  | [] => none
  | (v, n) :: rs => if v.toNat % n ≠ 0 then some v else misaligned rs

/-- The alignment check as a prologue step (40_control R142 step 6). -/
def alignPrologue (regs : List (Word × Nat)) : Prologue :=
  match misaligned regs with
  | some v => .error .align v
  | none => .pass

/-- The prologue of a rectangle command from step 5 on: zero area, then alignment (40_control R142, R143). -/
def rectPrologue (s : State) (regs : List (Word × Nat)) : Prologue :=
  if width s = 0 ∨ height s = 0 then .zeroArea else alignPrologue regs

/-- COMP or QSEL as one of the three places, none for the illegal value 3 (30_encoding R113, R114, R122). -/
def index3 (f : BitVec 2) : Option (Fin 3) :=
  if f = 0#2 then some 0 else if f = 1#2 then some 1 else if f = 2#2 then some 2 else none

/-- The DC table's slot, `DCSEL` (30_encoding R119). -/
def dcSlot (dcsel : Bool) : Fin 4 := if dcsel then 1 else 0

/-- The AC table's slot, `2 + ACSEL` (30_encoding R119). -/
def acSlot (acsel : Bool) : Fin 4 := if acsel then 3 else 2

/-! ### Pixel formats (20_memory R88 to R94) -/

/-- Bytes per pixel (20_memory R90). -/
def bpp : PixelFormat → Nat
  | .rgb565 => 2
  | .argb8888 => 4

/-- `Pack565(r, g, b)`: the low bits are truncated (20_memory R91). -/
def pack565 (r g b : Nat) : Half := BitVec.ofNat 5 (r >>> 3) ++ BitVec.ofNat 6 (g >>> 2) ++ BitVec.ofNat 5 (b >>> 3)

/-- An ARGB8888 word from its channels (20_memory R89). -/
def pack8888 (a r g b : Nat) : Word := BitVec.ofNat 8 a ++ BitVec.ofNat 8 r ++ BitVec.ofNat 8 g ++ BitVec.ofNat 8 b

/-- `p[31:24]` (20_memory R89). -/
def alphaOf (p : Word) : Nat := (p.extractLsb' 24 8).toNat

/-- `p[23:16]` (20_memory R89). -/
def redOf (p : Word) : Nat := (p.extractLsb' 16 8).toNat

/-- `p[15:8]` (20_memory R89). -/
def greenOf (p : Word) : Nat := (p.extractLsb' 8 8).toNat

/-- `p[7:0]` (20_memory R89). -/
def blueOf (p : Word) : Nat := (p.extractLsb' 0 8).toNat

/-- `Expand5` (20_memory R94). -/
def expand5 (e : Rgb565Expand) (v : Nat) : Nat :=
  match e with
  | .replicate => (v <<< 3) ||| (v >>> 2)
  | .shift => v <<< 3

/-- `Expand6` (20_memory R94). -/
def expand6 (e : Rgb565Expand) (v : Nat) : Nat :=
  match e with
  | .replicate => (v <<< 2) ||| (v >>> 4)
  | .shift => v <<< 2

/-- `To565(p)`: the alpha is discarded (20_memory R92). -/
def to565 (p : Word) : Half := pack565 (redOf p) (greenOf p) (blueOf p)

/-- `To8888(p)`: the alpha is 255 (20_memory R93). -/
def to8888 (e : Rgb565Expand) (p : Half) : Word :=
  pack8888 0xFF (expand5 e (p.extractLsb' 11 5).toNat) (expand6 e (p.extractLsb' 5 6).toNat)
    (expand5 e (p.extractLsb' 0 5).toNat)

/-! ### Rectangles (20_memory R100) -/

/-- One pixel step: the accesses before the write, in order, the element written, and the value it gets from memory as
it stands when the step runs. -/
structure Pixel where
  reads : List Access
  dst : Word
  size : Nat
  step : Nat
  value : Memory → Nat

/-- The accesses of a pixel step in order: its reads, then its write. -/
def pixelAccesses (p : Pixel) : List Access := p.reads ++ [⟨.write, p.dst, p.size, p.step⟩]

/-- The (row, column) pairs of a rectangle in row-major order (20_memory R100). -/
def cells (w h : Nat) : List (Nat × Nat) :=
  (List.range h).flatMap fun row => (List.range w).map fun col => (row, col)

/-- The pixel steps of a rectangle command, in row-major order; the step number is `row·WIDTH + col`. -/
def rectPixels (s : State) (pixel : Nat → Nat → Nat → Pixel) : List Pixel :=
  (cells (width s) (height s)).map fun rc => pixel (rc.1 * width s + rc.2) rc.1 rc.2

/-- The accesses of a list of pixel steps, in order. -/
def rectPlan (ps : List Pixel) : List Access := ps.flatMap pixelAccesses

/-- Run pixel steps one after the other: each reads memory as the steps before it left it. -/
def runPixels : List Pixel → Memory → Memory
  | [], m => m
  | p :: ps, m => runPixels ps (Memory.store m p.size p.dst (p.value m))

/-- A rectangle command: its prologue, then its pixel steps, `complete(0)`, or the state after a body error
(40_control R142, R144, 60_exceptions R333). -/
def execRect (s : State) (p : Prologue) (ps : List Pixel) : Answer :=
  afterPrologue p s
    (perform s [] (rectPlan ps) ((s.setMem (runPixels ps s.mem)).complete 0#32) (s.drawWrites (rectPlan ps)))

/-- A command's footprint: the bytes it reads and writes (00_scope R20). -/
structure Footprint where
  reads : List Access
  writes : List Access

/-- The footprint of a body whose accesses are `plan`, empty where the prologue ends the command. -/
def planFootprint (p : Prologue) (plan : List Access) : Footprint :=
  match p with
  | .pass => ⟨plan.filter fun x => !x.isWrite, plan.filter Access.isWrite⟩
  | _ => ⟨[], []⟩

end Sys2Proof.Machine
end

