-- ==== Sys2Proof/Machine/Blend.lean ====
section
/-! DEFINITION. The Porter-Duff "over" blender BLEND (46_blend). -/

namespace Sys2Proof.Machine

/-- `a_mult` (46_blend R311). -/
def alphaMult (af ab : Nat) : Nat := af * ab / 255

/-- `a_out` (46_blend R311). -/
def alphaOut (af ab : Nat) : Nat := af + ab - alphaMult af ab

/-- One channel of the "over" formula, floor division (46_blend R311). -/
def overChannel (af ab cf cb : Nat) : Nat := (cf * af + cb * ab - cb * alphaMult af ab) / alphaOut af ab

/-- The destination word as an ARGB8888 background: an RGB565 one is opaque (46_blend R311). -/
def background (e : Rgb565Expand) (d : Word) : PixelFormat → Word
  | .rgb565 => to8888 e (d.setWidth 16)
  | .argb8888 => d

/-- `BlendPixel(s, d, df)`: a background word of zero resulting alpha is kept (46_blend R311, R313). -/
def blendPixel (e : Rgb565Expand) (src d : Word) (df : PixelFormat) : Word :=
  let b := background e d df
  let af := alphaOf src
  let ab := alphaOf b
  let r := overChannel af ab (redOf src) (redOf b)
  let g := overChannel af ab (greenOf src) (greenOf b)
  let bl := overChannel af ab (blueOf src) (blueOf b)
  if alphaOut af ab = 0 then d
  else match df with
    | .argb8888 => pack8888 (alphaOut af ab) r g bl
    | .rgb565 => (pack565 r g bl).setWidth 32

/-- A source pixel stored without blending: widened for an ARGB8888 destination (46_blend R312). -/
def copyPixel (e : Rgb565Expand) (v : Nat) (df : PixelFormat) : Nat :=
  match df with
  | .rgb565 => v
  | .argb8888 => (to8888 e (BitVec.ofNat 16 v)).toNat

/-- One pixel of BLEND: read the source, read the destination if the source has alpha, write the destination
(46_blend R310). -/
def blendPixelStep (s : State) (sf df : PixelFormat) (step row col : Nat) : Pixel :=
  let sa := elem s.srcAddr s.srcStride row col (bpp sf)
  let da := elem s.dstAddr s.dstStride row col (bpp df)
  { reads := ⟨.read, sa, bpp sf, step⟩ :: (match sf with | .rgb565 => [] | .argb8888 => [⟨.modify, da, bpp df, step⟩])
    dst := da
    size := bpp df
    step := step
    value := fun m =>
      match sf with
      | .rgb565 => copyPixel s.cfg.expand (Memory.load m 2 sa) df
      | .argb8888 =>
        (blendPixel s.cfg.expand (BitVec.ofNat 32 (Memory.load m 4 sa)) (BitVec.ofNat 32 (Memory.load m (bpp df) da)) df).toNat }

/-- The registers BLEND checks, in order (46_blend R310). -/
def blendRegs (s : State) (sf df : PixelFormat) : List (Word × Nat) :=
  [(s.srcAddr, bpp sf), (s.srcStride, bpp sf), (s.dstAddr, bpp df), (s.dstStride, bpp df)]

/-- The pixel steps of BLEND (46_blend R310). -/
def blendPixels (s : State) (sf df : PixelFormat) : List Pixel := rectPixels s (blendPixelStep s sf df)

/-- BLEND (46_blend R310). -/
def execBlend (sfmt dfmt : PixelFormat) (s : State) : Answer :=
  execRect s (rectPrologue s (blendRegs s sfmt dfmt)) (blendPixels s sfmt dfmt)

end Sys2Proof.Machine
end

