-- ==== Sys2Proof/Machine/Color.lean ====
section
/-! DEFINITION. Chroma upsampling and colour conversion: UPSAMPLE and YCC2RGB (44_color). -/

namespace Sys2Proof.Machine

/-! ### UPSAMPLE (44_color R260) -/

/-- The prologue of UPSAMPLE: illegal ratios, zero ratios, zero area, alignment (40_control R142, 44_color R260). -/
def upsamplePrologue (s : State) (hr vr : BitVec 2) : Prologue :=
  if hr = 3#2 ∨ vr = 3#2 then .error .illegal 0#32
  else if hr = 0#2 ∨ vr = 0#2 then .error .sampling 0#32
  else rectPrologue s [(s.srcAddr, 2), (s.srcStride, 2), (s.dstAddr, 2), (s.dstStride, 2)]

/-- One sample of UPSAMPLE: the source sample at (row / vr, col / hr), copied bit for bit (44_color R260). -/
def upsamplePixel (s : State) (hr vr : Nat) (step row col : Nat) : Pixel :=
  let src := elem s.srcAddr s.srcStride (row / vr) (col / hr) 2
  { reads := [⟨.read, src, 2, step⟩]
    dst := elem s.dstAddr s.dstStride row col 2
    size := 2
    step := step
    value := fun m => Memory.load m 2 src }

/-- The pixel steps of UPSAMPLE (44_color R260). -/
def upsamplePixels (s : State) (hr vr : BitVec 2) : List Pixel := rectPixels s (upsamplePixel s hr.toNat vr.toNat)

/-- UPSAMPLE (44_color R260). -/
def execUpsample (hr vr : BitVec 2) (s : State) : Answer :=
  execRect s (upsamplePrologue s hr vr) (upsamplePixels s hr vr)

/-! ### YCC2RGB (44_color R264) -/

/-- The red channel of `YccToRgb` (44_color R266). -/
def yccRed (k : YccCoef) (y cr : Int) : Int := clamp ((256 * y + k.crR * cr + 128) >>> 8) 0 255

/-- The green channel of `YccToRgb` (44_color R266). -/
def yccGreen (k : YccCoef) (y cb cr : Int) : Int := clamp ((256 * y - k.cbG * cb - k.crG * cr + 128) >>> 8) 0 255

/-- The blue channel of `YccToRgb` (44_color R266). -/
def yccBlue (k : YccCoef) (y cb : Int) : Int := clamp ((256 * y + k.cbB * cb + 128) >>> 8) 0 255

/-- The RGB565 pixel of a (Y, Cb, Cr) triple (44_color R264, R266). -/
def yccPixel (k : YccCoef) (y cb cr : Int) : Half :=
  pack565 (yccRed k y cr).toNat (yccGreen k y cb cr).toNat (yccBlue k y cb).toNat

/-- `Rd16s`: a signed 16-bit sample (00_scope R18). -/
def sampleAt (m : Memory) (a : Word) : Int := (BitVec.ofNat 16 (Memory.load m 2 a)).toInt

/-- The registers YCC2RGB checks, in order; with GRAY the chroma registers are not among them (44_color R264, R268). -/
def yccRegs (s : State) (gray : Bool) : List (Word × Nat) :=
  [(s.srcAddr, 2), (s.srcStride, 2)] ++ (if gray then [] else [(s.auxAddr, 2), (s.aux2Addr, 2), (s.auxStride, 2)])
    ++ [(s.dstAddr, 2), (s.dstStride, 2)]

/-- One pixel of YCC2RGB: read Y, then Cb and Cr unless GRAY, and write the pixel (44_color R264). -/
def yccPixelStep (s : State) (gray : Bool) (step row col : Nat) : Pixel :=
  let ya := elem s.srcAddr s.srcStride row col 2
  let cba := elem s.auxAddr s.auxStride row col 2
  let cra := elem s.aux2Addr s.auxStride row col 2
  { reads := ⟨.read, ya, 2, step⟩ :: (if gray then [] else [⟨.read, cba, 2, step⟩, ⟨.read, cra, 2, step⟩])
    dst := elem s.dstAddr s.dstStride row col 2
    size := 2
    step := step
    value := fun m =>
      (if gray then yccPixel s.cfg.ycc (sampleAt m ya) 0 0
       else yccPixel s.cfg.ycc (sampleAt m ya) (sampleAt m cba) (sampleAt m cra)).toNat }

/-- The pixel steps of YCC2RGB (44_color R264). -/
def yccPixels (s : State) (gray : Bool) : List Pixel := rectPixels s (yccPixelStep s gray)

/-- YCC2RGB (44_color R264). -/
def execYcc2rgb (gray : Bool) (s : State) : Answer := execRect s (rectPrologue s (yccRegs s gray)) (yccPixels s gray)

end Sys2Proof.Machine
end

