-- ==== Sys2Proof/Machine/Control.lean ====
section
/-! DEFINITION. The control commands NOP and RESET_DC (40_control). -/

namespace Sys2Proof.Machine

/-- NOP (40_control R145). -/
def execNop (s : State) : Answer := .next (s.complete 0#32)

/-- RESET_DC: the three predictors go to 0; the bit reader is not touched (40_control R146). -/
def execResetDc (s : State) : Answer := .next (s.clearPred.complete 0#32)

end Sys2Proof.Machine
end

