-- ==== Sys2Proof/Machine/Entropy.lean ====
section
/-! DEFINITION. The bit reader, Huffman decoding, RESTART and DECODE_BLOCK (42_entropy). -/

namespace Sys2Proof.Machine

/-! ### Bit reader (42_entropy R190 to R194) -/

/-- The bit reader's cursor while a command runs, and the entropy bytes it has read. -/
structure Reader where
  addr : Word
  buf : Byte
  cnt : Nat
  seen : List Access
  deriving DecidableEq, Repr

/-- A reading step: a value with the reader after it, or a stop with the bytes read before it. -/
inductive Reading (α : Type) where
  | got (a : α) (r : Reader)
  | stop (why : Stop) (seen : List Access)
  deriving DecidableEq, Repr

/-- Go on with the value read. -/
def Reading.bind {α β : Type} (x : Reading α) (f : α → Reader → Reading β) : Reading β :=
  match x with
  | .got a r => f a r
  | .stop why seen => .stop why seen

/-- The reader at a command's start (10_state R58). -/
def startReader (s : State) : Reader := ⟨s.bsAddr, s.bitbuf, s.bitcnt, []⟩

/-- The reader after the entropy byte at `a` has been read. -/
def Reader.saw (r : Reader) (a : Word) : Reader := { r with seen := r.seen ++ [⟨.read, a, 1, 0⟩] }

/-- `MemRead8` of an entropy byte. -/
def readEntropy (s : State) (a : Word) (r : Reader) : Reading Byte :=
  match fetch s a with
  | .error e => .stop e r.seen
  | .ok b => .got b (r.saw a)

/-- `FetchByte()`: the next entropy byte, without its stuffing byte (42_entropy R191). -/
def fetchByte (s : State) (r : Reader) : Reading Byte :=
  let a := r.addr
  if s.bsEnd.toNat ≤ a.toNat then .stop (.error .trunc a) r.seen
  else (readEntropy s a r).bind fun b r =>
    if b = 0xFF#8 then
      if s.bsEnd.toNat ≤ a.toNat + 1 then .stop (.error .trunc a) r.seen
      else (readEntropy s (a + 1#32) r).bind fun b2 r =>
        if b2 = 0x00#8 then .got b { r with addr := a + 2#32 } else .stop (.error .marker a) r.seen
    else .got b { r with addr := a + 1#32 }

/-- The next bit of a reader whose buffer is not empty, most significant first (42_entropy R192). -/
def takeBit (r : Reader) : Reading Bool := .got (r.buf.getLsbD (r.cnt - 1)) { r with cnt := r.cnt - 1 }

/-- `NextBit()` (42_entropy R192). -/
def nextBit (s : State) (r : Reader) : Reading Bool :=
  if r.cnt = 0 then (fetchByte s r).bind fun b r => takeBit { r with buf := b, cnt := 8 } else takeBit r

/-- `Receive(n)` after the bits that gave `v` (42_entropy R193). -/
def receiveFrom (s : State) : Nat → Nat → Reader → Reading Nat
  | 0, v, r => .got v r
  | n + 1, v, r => (nextBit s r).bind fun b r => receiveFrom s n (2 * v + b.toNat) r

/-- `Receive(n)` (42_entropy R193). -/
def receive (s : State) (n : Nat) (r : Reader) : Reading Nat := receiveFrom s n 0 r

/-- `Extend(v, s)` (42_entropy R194). -/
def extend (v n : Nat) : Int :=
  if n = 0 then 0 else if v < 2 ^ (n - 1) then (v : Int) - 2 ^ n + 1 else v

/-! ### Huffman decoding (42_entropy R195) -/

/-- The symbol a code selects in a row it matches, `val[valptr + code - mincode]` (42_entropy R195, R196; log 18). -/
def symbolAt (values : List Byte) (row : CodeRow) (code : Nat) : Byte := values.getD (row.valptr + code - row.mincode) 0#8

/-- `HuffDecode` over the rows of the code lengths still to try, after the bits that gave `code` (42_entropy R195). -/
def huffFrom (s : State) (values : List Byte) : List CodeRow → Nat → Reader → Reading Byte
  | [], _, r => .stop (.error .huffCode r.addr) r.seen
  | row :: rows, code, r =>
    (nextBit s r).bind fun b r =>
      let code := 2 * code + b.toNat
      if 0 ≤ row.maxcode ∧ (code : Int) ≤ row.maxcode then .got (symbolAt values row code) r
      else huffFrom s values rows code r

/-- `HuffDecode(slot)` (42_entropy R195). -/
def huffDecode (s : State) (slot : Fin 4) (r : Reader) : Reading Byte :=
  huffFrom s (s.ht.get slot).values (s.ht.get slot).rows.toList 0 r

/-! ### RESTART (42_entropy R197) -/

/-- RESTART: TRUNC before any state changes, or skip the marker, realign and clear the predictors (42_entropy R197,
R198). -/
def execRestart (s : State) : Answer :=
  if s.bsEnd.toNat ≤ s.bsAddr.toNat ∨ s.bsEnd.toNat - s.bsAddr.toNat < 2 then .next (s.raise .trunc s.bsAddr)
  else .next (((s.setReader (s.bsAddr + 2#32) 0#8 0).clearPred).complete 0#32)

/-! ### DECODE_BLOCK (42_entropy R199) -/

/-- The largest DC category and the largest AC size (42_entropy R200). -/
def maxDcCategory : Nat := 11

/-- See `maxDcCategory`. -/
def maxAcSize : Nat := 10

/-- The DC difference of a block: its category, then its value bits (42_entropy R199, R200). -/
def decodeDc (s : State) (slot : Fin 4) (r : Reader) : Reading Int :=
  (huffDecode s slot r).bind fun t r =>
    if maxDcCategory < t.toNat then .stop (.error .coef r.addr) r.seen
    else (receive s t.toNat r).bind fun v r => .got (extend v t.toNat) r

/-- A block being decoded: the new predictor, the coefficients in zig-zag order, and the position k reached. -/
structure Block where
  pred : Half
  z : Vector Half 64
  k : Nat
  deriving DecidableEq, Repr

/-- Write a coefficient at zig-zag position `k`. -/
def Block.put (b : Block) (k : Nat) (v : Int) : Block := ⟨b.pred, b.z.setIfInBounds k (BitVec.ofInt 16 v), k + 1⟩

/-- The AC loop; `fuel` is at least the positions left, as every round advances k (42_entropy R199, R201). -/
def decodeAc (s : State) (slot : Fin 4) : Nat → Block → Reader → Reading Block
  | 0, b, r => .got b r
  | fuel + 1, b, r =>
    if 64 ≤ b.k then .got b r
    else (huffDecode s slot r).bind fun rs r =>
      if rs = 0x00#8 then .got b r
      else
        let run := (rs.extractLsb' 4 4).toNat
        let sz := (rs.extractLsb' 0 4).toNat
        if (sz = 0 ∧ run ≠ 15) ∨ maxAcSize < sz then .stop (.error .coef r.addr) r.seen
        else if 63 < b.k + run then .stop (.error .coef r.addr) r.seen
        else (receive s sz r).bind fun v r => decodeAc s slot fuel (b.put (b.k + run) (extend v sz)) r

/-- `wrap16(PRED[c] + diff)` (42_entropy R199). -/
def nextPred (s : State) (c : Fin 3) (diff : Int) : Half := s.pred.get c + BitVec.ofInt 16 diff

/-- A block with its DC coefficient alone (42_entropy R199). -/
def dcBlock (pred : Half) : Block := ⟨pred, (Vector.replicate 64 0#16).set 0 pred, 1⟩

/-- A whole block, before its coefficients are written (42_entropy R199). -/
def decodeCoeffs (s : State) (c : Fin 3) (dc ac : Fin 4) : Reading Block :=
  (decodeDc s dc (startReader s)).bind fun diff r => decodeAc s ac 63 (dcBlock (nextPred s c diff)) r

/-- The 64 coefficient writes, contiguous from DST_ADDR (42_entropy R202). -/
def decodePlan (s : State) : List Access :=
  (List.range 64).map fun i => ⟨.write, s.dstAddr + BitVec.ofNat 32 (2 * i), 2, 0⟩

/-- Write 16-bit elements to consecutive addresses. -/
def storeHalves : List Half → Word → Memory → Memory
  | [], _, m => m
  | v :: vs, a, m => storeHalves vs (a + 2#32) (Memory.store m 2 a v.toNat)

/-- The prologue of DECODE_BLOCK after COMP has been checked: table validity, then alignment (40_control R142). -/
def decodePrologue (s : State) (dc ac : Fin 4) : Prologue :=
  if s.hv.get dc = false ∨ s.hv.get ac = false then .error .noTable 0#32 else alignPrologue [(s.dstAddr, 2)]

/-- The state after a body error: the predictor, the bit reader and the write set are free (60_exceptions R333). -/
def decodeStopped (s : State) (c : Fin 3) : State := (s.drawEntropy c).drawWrites (decodePlan s)

/-- The state once the block is decoded and written (42_entropy R199, R203). -/
def decodeFinished (s : State) (c : Fin 3) (b : Block) (r : Reader) : State :=
  (((s.setPred c b.pred).setReader r.addr r.buf r.cnt).setMem (storeHalves b.z.toList s.dstAddr s.mem)).complete
    (BitVec.ofNat 32 b.k)

/-- The body of DECODE_BLOCK (42_entropy R199). -/
def decodeBody (s : State) (c : Fin 3) (dc ac : Fin 4) : Answer :=
  match decodeCoeffs s c dc ac with
  | .stop why _ => stopWith why (decodeStopped s c)
  | .got b r => perform s r.seen (decodePlan s) (decodeFinished s c b r) (decodeStopped s c)

/-- DECODE_BLOCK (42_entropy R199). -/
def execDecodeBlock (comp : BitVec 2) (dcsel acsel : Bool) (s : State) : Answer :=
  match index3 comp with
  | none => .next (s.raise .illegal 0#32)
  | some c =>
    afterPrologue (decodePrologue s (dcSlot dcsel) (acSlot acsel)) s (decodeBody s c (dcSlot dcsel) (acSlot acsel))

/-- The entropy bytes a block reads from the state as it stands (42_entropy R204). -/
def decodeReads (s : State) (c : Fin 3) (dc ac : Fin 4) : List Access :=
  match decodeCoeffs s c dc ac with
  | .stop _ seen => seen
  | .got _ r => r.seen

end Sys2Proof.Machine
end

