-- ==== Sys2Proof/Machine/Idct.lean ====
section
/-! DEFINITION. Dequantisation, de-zig-zag and the 8×8 inverse DCT (43_idct). -/

namespace Sys2Proof.Machine

/-- The zig-zag table ZZ (43_idct R232). -/
def zigzag : List Nat :=
  [0, 1, 8, 16, 9, 2, 3, 10, 17, 24, 32, 25, 18, 11, 4, 5] ++
  [12, 19, 26, 33, 40, 48, 41, 34, 27, 20, 13, 6, 7, 14, 21, 28] ++
  [35, 42, 49, 56, 57, 50, 43, 36, 29, 22, 15, 23, 30, 37, 44, 51] ++
  [58, 59, 52, 45, 38, 31, 39, 46, 53, 60, 61, 54, 47, 55, 62, 63]

/-- Scatter values to the natural positions a list names: `F[position] = value`. -/
def scatter : List Nat → List Int → List Int → List Int
  | p :: ps, v :: vs, f => scatter ps vs (f.set p v)
  | _, _, f => f

/-- The dequantised values in zig-zag order: `sat16(Z[k] * QT[q][k])` (43_idct R233). -/
def dequantised (z : List Int) (t : QuantTable) : List Int :=
  List.zipWith (fun v e => sat16 (v * (e.toNat : Int))) z t.toList

/-- `Prepare(Z, q, raw)`: the natural-order block F (43_idct R233). -/
def prepare (z : List Int) (t : QuantTable) (raw : Bool) : List Int :=
  if raw then z else scatter zigzag (dequantised z t) (List.replicate 64 0)

/-- The fixed-point constants (43_idct R234). -/
def w1 : Int := 2841

/-- See `w1`. -/
def w2 : Int := 2676

/-- See `w1`. -/
def w3 : Int := 2408

/-- See `w1`. -/
def w5 : Int := 1609

/-- See `w1`. -/
def w6 : Int := 1108

/-- See `w1`. -/
def w7 : Int := 565

/-- Stages 3 and 4 of a pass, from the values stage 2 leaves; `>>` is floor division by a power of two (43_idct R236,
R237, 00_scope R14). -/
def lastStages (shift : Nat) (x0 x1 x2 x3 x4 x5 x6 x8 : Int) : List Int :=
  let x7 := x8 + x3
  let x8 := x8 - x3
  let x3 := x0 + x2
  let x0 := x0 - x2
  let x2 := (181 * (x4 + x5) + 128) >>> 8
  let x4 := (181 * (x4 - x5) + 128) >>> 8
  [(x7 + x1) >>> shift, (x3 + x2) >>> shift, (x0 + x4) >>> shift, (x8 + x6) >>> shift,
   (x8 - x6) >>> shift, (x0 - x4) >>> shift, (x3 - x2) >>> shift, (x7 - x1) >>> shift]

/-- `RowPass(b[0..7])` (43_idct R236). -/
def rowPass (b0 b1 b2 b3 b4 b5 b6 b7 : Int) : List Int :=
  let x0 := b0 * 2 ^ 11 + 128
  let x1 := b4 * 2 ^ 11
  let x2 := b6
  let x3 := b2
  let x4 := b1
  let x5 := b7
  let x6 := b5
  let x7 := b3
  let x8 := w7 * (x4 + x5)
  let x4 := x8 + (w1 - w7) * x4
  let x5 := x8 - (w1 + w7) * x5
  let x8 := w3 * (x6 + x7)
  let x6 := x8 - (w3 - w5) * x6
  let x7 := x8 - (w3 + w5) * x7
  let x8 := x0 + x1
  let x0 := x0 - x1
  let x1 := w6 * (x3 + x2)
  let x2 := x1 - (w2 + w6) * x2
  let x3 := x1 + (w2 - w6) * x3
  let x1 := x4 + x6
  let x4 := x4 - x6
  let x6 := x5 + x7
  let x5 := x5 - x7
  lastStages 8 x0 x1 x2 x3 x4 x5 x6 x8

/-- `ColPass(b[0..7])` (43_idct R237). -/
def colPass (b0 b1 b2 b3 b4 b5 b6 b7 : Int) : List Int :=
  let x0 := b0 * 2 ^ 8 + 8192
  let x1 := b4 * 2 ^ 8
  let x2 := b6
  let x3 := b2
  let x4 := b1
  let x5 := b7
  let x6 := b5
  let x7 := b3
  let x8 := w7 * (x4 + x5) + 4
  let x4 := (x8 + (w1 - w7) * x4) >>> 3
  let x5 := (x8 - (w1 + w7) * x5) >>> 3
  let x8 := w3 * (x6 + x7) + 4
  let x6 := (x8 - (w3 - w5) * x6) >>> 3
  let x7 := (x8 - (w3 + w5) * x7) >>> 3
  let x8 := x0 + x1
  let x0 := x0 - x1
  let x1 := w6 * (x3 + x2) + 4
  let x2 := (x1 - (w2 + w6) * x2) >>> 3
  let x3 := (x1 + (w2 - w6) * x3) >>> 3
  let x1 := x4 + x6
  let x4 := x4 - x6
  let x6 := x5 + x7
  let x5 := x5 - x7
  lastStages 14 x0 x1 x2 x3 x4 x5 x6 x8

/-- A pass over the eight elements of a list. -/
def passOn (pass : Int → Int → Int → Int → Int → Int → Int → Int → List Int) (f : Nat → Int) : List Int :=
  pass (f 0) (f 1) (f 2) (f 3) (f 4) (f 5) (f 6) (f 7)

/-- The row results, eight lists of eight (43_idct R235). -/
def rowResults (f : List Int) : List (List Int) :=
  (List.range 8).map fun r => passOn rowPass fun u => f.getD (8 * r + u) 0

/-- The column results, one list for each column (43_idct R235). -/
def colResults (rows : List (List Int)) : List (List Int) :=
  (List.range 8).map fun c => passOn colPass fun v => (rows.getD v []).getD c 0

/-- `IdctCore(F)`, as `O[row][col]` (43_idct R235); CW11 is the only kernel (R234). -/
def idctCore (k : IdctKernel) (f : List Int) (row col : Nat) : Int :=
  match k with
  | .cw11 => ((colResults (rowResults f)).getD col []).getD row 0

/-- The 64 input coefficients, contiguous at SRC_ADDR (43_idct R230). -/
def idctInput (s : State) : List Int :=
  (List.range 64).map fun i =>
    (BitVec.ofNat 16 (Memory.load s.mem 2 (s.srcAddr + BitVec.ofNat 32 (2 * i)))).toInt

/-- The output sample at (row, col): the clip, then the level shift (43_idct R230, R239, R240). -/
def idctSample (c : Config) (o : Int) (lshift : Bool) : Int := clamp o c.clipLo c.clipHi + (if lshift then 128 else 0)

/-- The prologue of IDCT after QSEL has been checked: table validity, then alignment (40_control R142, 43_idct R230). -/
def idctPrologue (s : State) (q : Fin 3) (raw : Bool) : Prologue :=
  if raw = false ∧ s.qv.get q = false then .error .noTable 0#32
  else alignPrologue [(s.srcAddr, 2), (s.dstAddr, 2), (s.dstStride, 2)]

/-- The address of output sample (row, col) (43_idct R230). -/
def idctDst (s : State) (rc : Nat × Nat) : Word := elem s.dstAddr s.dstStride rc.1 rc.2 2

/-- The accesses of IDCT in order: the 64 reads, then the 64 writes in row-major order (43_idct R230, R231). -/
def idctPlan (s : State) : List Access :=
  ((List.range 64).map fun i => ⟨.read, s.srcAddr + BitVec.ofNat 32 (2 * i), 2, 0⟩) ++
  (cells 8 8).map fun rc => ⟨.write, idctDst s rc, 2, 0⟩

/-- Write samples to the output elements, in order. -/
def storeSamples (s : State) (sample : Nat × Nat → Int) : List (Nat × Nat) → Memory → Memory
  | [], m => m
  | rc :: rcs, m =>
    storeSamples s sample rcs (Memory.store m 2 (idctDst s rc) (BitVec.ofInt 16 (sample rc)).toNat)

/-- Memory after IDCT (43_idct R230). -/
def idctMem (s : State) (q : Fin 3) (lshift raw : Bool) : Memory :=
  let f := prepare (idctInput s) (s.qt.get q) raw
  storeSamples s (fun rc => idctSample s.cfg (idctCore s.cfg.kernel f rc.1 rc.2) lshift) (cells 8 8) s.mem

/-- IDCT (43_idct R230). -/
def execIdct (qsel : BitVec 2) (lshift raw : Bool) (s : State) : Answer :=
  match index3 qsel with
  | none => .next (s.raise .illegal 0#32)
  | some q =>
    afterPrologue (idctPrologue s q raw) s
      (perform s [] (idctPlan s) ((s.setMem (idctMem s q lshift raw)).complete 0#32) (s.drawWrites (idctPlan s)))

end Sys2Proof.Machine
end

