-- ==== Sys2Proof/Machine/PixelConvert.lean ====
section
/-! DEFINITION. Pixel-format conversion: CVT565_8888 and CVT8888_565 (45_pixel). -/

namespace Sys2Proof.Machine

/-- A pixel step that reads one source element and writes one destination element. -/
def convertPixel (s : State) (srcSize dstSize : Nat) (value : Nat → Nat) (step row col : Nat) : Pixel :=
  let src := elem s.srcAddr s.srcStride row col srcSize
  { reads := [⟨.read, src, srcSize, step⟩]
    dst := elem s.dstAddr s.dstStride row col dstSize
    size := dstSize
    step := step
    value := fun m => value (Memory.load m srcSize src) }

/-- The registers a conversion checks, in order (45_pixel R290, R292). -/
def convertRegs (s : State) (srcSize dstSize : Nat) : List (Word × Nat) :=
  [(s.srcAddr, srcSize), (s.srcStride, srcSize), (s.dstAddr, dstSize), (s.dstStride, dstSize)]

/-- The pixel steps of CVT565_8888 (45_pixel R290). -/
def widenPixels (s : State) : List Pixel :=
  rectPixels s (convertPixel s 2 4 fun v => (to8888 s.cfg.expand (BitVec.ofNat 16 v)).toNat)

/-- CVT565_8888 (45_pixel R290). -/
def execCvt565To8888 (s : State) : Answer := execRect s (rectPrologue s (convertRegs s 2 4)) (widenPixels s)

/-- The pixel steps of CVT8888_565 (45_pixel R292). -/
def narrowPixels (s : State) : List Pixel :=
  rectPixels s (convertPixel s 4 2 fun v => (to565 (BitVec.ofNat 32 v)).toNat)

/-- CVT8888_565 (45_pixel R292). -/
def execCvt8888To565 (s : State) : Answer := execRect s (rectPrologue s (convertRegs s 4 2)) (narrowPixels s)

end Sys2Proof.Machine
end

