-- ==== Sys2Proof/Machine/TableLoad.lean ====
section
/-! DEFINITION. The table commands LOAD_DQT and LOAD_DHT (41_tables). -/

namespace Sys2Proof.Machine

/-- Read `n` consecutive bytes, in order (41_tables R160, R165). -/
def fetchBytes (s : State) : Nat → Word → Except Stop (List Byte)
  | 0, _ => .ok []
  | n + 1, a =>
    match fetch s a with
    | .error e => .error e
    | .ok b =>
      match fetchBytes s n (a + 1#32) with
      | .error e => .error e
      | .ok bs => .ok (b :: bs)

/-- How a segment load ends: the state with the tables committed so far, how many tables and how many segment bytes
were read, and the stop if it did not reach the segment's end. -/
structure LoadEnd where
  state : State
  tables : Nat
  touched : Nat
  stop : Option Stop

/-- The bytes read before a stop: up to the address that failed, or to `upto` where the stop is a data error. -/
def touchedAt (start upto : Word) : Stop → Nat
  | .error .bus a => (a - start).toNat
  | .error _ _ => (upto - start).toNat
  | .sideEffect a => (a - start).toNat

/-- The end of a load that stops, having read the segment's bytes before `upto`. -/
def loadStop (s : State) (n : Nat) (start upto : Word) (stop : Stop) : LoadEnd := ⟨s, n, touchedAt start upto stop, some stop⟩

/-- The big-endian length field of a segment, and the loop over its tables, given as `tables` from the number of bytes
left (00_scope R16, 41_tables R160, R165). -/
def loadSegment (s : State) (minLength : Nat) (tables : Nat → LoadEnd) : LoadEnd :=
  let a := s.srcAddr
  match fetchBytes s 2 a with
  | .error e => loadStop s 0 a a e
  | .ok bs =>
    let len := (bs.getD 0 0#8).toNat * 256 + (bs.getD 1 0#8).toNat
    if len < minLength then loadStop s 0 a (a + 2#32) (.error .segLength a) else tables (len - 2)

/-- The engine step of a segment load: `complete(n)`, or the raise with the state its tables left (41_tables R161,
R166, 60_exceptions R333). -/
def loadAnswer (e : LoadEnd) : Answer :=
  match e.stop with
  | none => .next (e.state.complete (BitVec.ofNat 32 e.tables))
  | some stop => stopWith stop e.state

/-- The bytes of the segment a load has read: a run from SRC_ADDR (41_tables R162, R170). -/
def segmentReads (s : State) (e : LoadEnd) : List Access := [⟨.read, s.srcAddr, e.touched, 0⟩]

/-! ### LOAD_DQT -/

/-- The slot a DQT id byte names: Pq must be 0 and Tq at most 2 (41_tables R160, R163). -/
def quantSlot (b : Byte) : Option (Fin 3) :=
  if b = 0x00#8 then some 0 else if b = 0x01#8 then some 1 else if b = 0x02#8 then some 2 else none

/-- 64 bytes as a slot's entries, in segment order (41_tables R160). -/
def quantOf (bs : List Byte) : QuantTable := Vector.ofFn fun k => bs.getD k.val 0#8

/-- The loop of LOAD_DQT with `rem` bytes left at `p`; `fuel` is at least `rem` (41_tables R160). -/
def quantTables (start : Word) : Nat → Nat → Word → Nat → State → LoadEnd
  | 0, _, p, n, s => ⟨s, n, (p - start).toNat, none⟩
  | fuel + 1, rem, p, n, s =>
    if rem = 0 then ⟨s, n, (p - start).toNat, none⟩
    else if rem < 65 then loadStop s n start p (.error .segLength p)
    else match fetch s p with
      | .error e => loadStop s n start p e
      | .ok b =>
        match quantSlot b with
        | none => loadStop s n start (p + 1#32) (.error .tableSpec p)
        | some q =>
          match fetchBytes s 64 (p + 1#32) with
          | .error e => loadStop (s.dropQuant q) n start p e
          | .ok bs => quantTables start fuel (rem - 65) (p + 65#32) (n + 1) (s.setQuant q (quantOf bs))

/-- The whole load of a DQT segment (41_tables R160). -/
def loadDqtEnd (s : State) : LoadEnd :=
  loadSegment s 67 fun rem => quantTables s.srcAddr rem rem (s.srcAddr + 2#32) 0 s

/-- LOAD_DQT (41_tables R160, R161). -/
def execLoadDqt (s : State) : Answer := loadAnswer (loadDqtEnd s)

/-! ### LOAD_DHT -/

/-- `Build` from code length `l` on: the rows of the canonical code, and whether the counts are not over-subscribed
(41_tables R167, R168). -/
def buildRows : Nat → Nat → Nat → List Byte → List CodeRow × Bool
  | _, _, _, [] => ([], true)
  | l, code, k, c :: cs =>
    let next := code + c.toNat
    let row : CodeRow := ⟨c, code, if c = 0#8 then -1 else (next : Int) - 1, k⟩
    let rest := buildRows (l + 1) (2 * next) (k + c.toNat) cs
    (row :: rest.1, decide (next ≤ 2 ^ l) && rest.2)

/-- `Build(cnt)` (41_tables R167). -/
def build (counts : List Byte) : List CodeRow × Bool := buildRows 1 0 0 counts

/-- The number of symbols of a table (41_tables R165). -/
def totalOf (counts : List Byte) : Nat := (counts.map BitVec.toNat).sum

/-- A slot from its counts' rows and its symbols. -/
def huffOf (rows : List CodeRow) (values : List Byte) : HuffTable :=
  ⟨Vector.ofFn fun l => rows.getD l.val ⟨0#8, 0, -1, 0⟩, values⟩

/-- The slot a DHT id byte names, `Th + 2·Tc`, with both at most 1 (41_tables R165, 90_conflicts C1). -/
def huffSlot (b : Byte) : Option (Fin 4) :=
  if b = 0x00#8 then some 0 else if b = 0x01#8 then some 1 else if b = 0x10#8 then some 2 else if b = 0x11#8 then some 3
  else none

/-- What LOAD_DHT makes of a table's 16 counts at `p` with `rem` bytes left: the error it raises, or the number of
symbols that follow (41_tables R165, R168). -/
def countsError (rem : Nat) (counts : List Byte) : Option ErrCode :=
  if totalOf counts > 256 then some .huffTable
  else if (build counts).2 = false then some .huffTable
  else if rem < 17 + totalOf counts then some .segLength
  else none

/-- The loop of LOAD_DHT with `rem` bytes left at `p`; `fuel` is at least `rem` (41_tables R165). -/
def huffTables (start : Word) : Nat → Nat → Word → Nat → State → LoadEnd
  | 0, _, p, n, s => ⟨s, n, (p - start).toNat, none⟩
  | fuel + 1, rem, p, n, s =>
    if rem = 0 then ⟨s, n, (p - start).toNat, none⟩
    else if rem < 17 then loadStop s n start p (.error .segLength p)
    else match fetch s p with
      | .error e => loadStop s n start p e
      | .ok b =>
        match huffSlot b with
        | none => loadStop s n start (p + 1#32) (.error .tableSpec p)
        | some h =>
          match fetchBytes s 16 (p + 1#32) with
          | .error e => loadStop (s.dropHuff h) n start p e
          | .ok counts =>
            match countsError rem counts with
            | some code => loadStop (s.dropHuff h) n start (p + 17#32) (.error code p)
            | none =>
              match fetchBytes s (totalOf counts) (p + 17#32) with
              | .error e => loadStop (s.dropHuff h) n start p e
              | .ok values =>
                huffTables start fuel (rem - (17 + totalOf counts)) (p + 17#32 + BitVec.ofNat 32 (totalOf counts)) (n + 1)
                  (s.setHuff h (huffOf (build counts).1 values))

/-- The whole load of a DHT segment (41_tables R165). -/
def loadDhtEnd (s : State) : LoadEnd :=
  loadSegment s 19 fun rem => huffTables s.srcAddr rem rem (s.srcAddr + 2#32) 0 s

/-- LOAD_DHT (41_tables R165, R166). -/
def execLoadDht (s : State) : Answer := loadAnswer (loadDhtEnd s)

end Sys2Proof.Machine
end

