-- ==== Sys2Proof/Machine/Host.lean ====
section
/-! DEFINITION. The host's moves: the register window, accesses to system memory with the footprint hazard, and the two
resets (10_state R32 to R54, 20_memory R85 and R98, 70_reset R370 to R372 and R382). -/

namespace Sys2Proof.Machine

/-! ### The footprint of a command (00_scope R20, 70_reset R385) -/

/-- The bytes a command reads and writes from the state as it stands; empty where its prologue ends it. The read set of
LOAD_DQT, LOAD_DHT and DECODE_BLOCK is the prefix they reach (41_tables R162, R170, 42_entropy R204, 43_idct R231,
44_color R261 and R265, 45_pixel R291 and R293, 46_blend R317). -/
def footprint (i : Instr) (s : State) : Footprint :=
  match i with
  | .nop => ⟨[], []⟩
  | .resetDc => ⟨[], []⟩
  | .restart => ⟨[], []⟩
  | .loadDqt => ⟨segmentReads s (loadDqtEnd s), []⟩
  | .loadDht => ⟨segmentReads s (loadDhtEnd s), []⟩
  | .decodeBlock comp dcsel acsel =>
    match index3 comp with
    | none => ⟨[], []⟩
    | some c =>
      planFootprint (decodePrologue s (dcSlot dcsel) (acSlot acsel))
        (decodeReads s c (dcSlot dcsel) (acSlot acsel) ++ decodePlan s)
  | .idct qsel _ raw =>
    match index3 qsel with
    | none => ⟨[], []⟩
    | some q => planFootprint (idctPrologue s q raw) (idctPlan s)
  | .upsample hr vr => planFootprint (upsamplePrologue s hr vr) (rectPlan (upsamplePixels s hr vr))
  | .ycc2rgb gray => planFootprint (rectPrologue s (yccRegs s gray)) (rectPlan (yccPixels s gray))
  | .cvt565To8888 => planFootprint (rectPrologue s (convertRegs s 2 4)) (rectPlan (widenPixels s))
  | .cvt8888To565 => planFootprint (rectPrologue s (convertRegs s 4 2)) (rectPlan (narrowPixels s))
  | .blend sfmt dfmt => planFootprint (rectPrologue s (blendRegs s sfmt dfmt)) (rectPlan (blendPixels s sfmt dfmt))

/-- The write set of a command, byte by byte (00_scope R20). -/
def writeSet (i : Instr) (s : State) : List Word := writeBytes (footprint i s).writes

/-- The footprint of the pending command; an illegal word has none (30_encoding R120). -/
def pendingFootprint (s : State) : Footprint :=
  match decode s.cmd with
  | .error _ => ⟨[], []⟩
  | .ok i => footprint i s

/-! ### Resets (70_reset R370 to R373) -/

/-- The reset values of every register and internal item; the contents of the table slots, all invalid, are free (93 U5;
log 6). The machine's parameters, system memory and the host's own script and data are not the engine's to reset
(70_reset R372, R373; log 15). -/
def State.resetRegisters (s : State) : State :=
  { State.reset with
    cfg := s.cfg
    qt := Vector.ofFn fun q => Config.freeQuant (s.draws + q.val)
    ht := Vector.ofFn fun h => Config.freeHuff (s.draws + h.val)
    mem := s.mem
    turns := s.turns
    hostData := s.hostData
    draws := s.draws + 4 }

/-- Soft reset: with BUSY = 1 the pending command is aborted, and each byte of its write set, as computed from the state
at this step, is free (70_reset R371). -/
def State.softReset (s : State) : State :=
  if s.busy then (s.drawWrites (pendingFootprint s).writes).resetRegisters else s.resetRegisters

/-! ### The register window (10_state R32 to R54) -/

/-- The defined registers (10_state R32). -/
inductive Reg where
  | id | version | ctrl | status | cmd | result | errAddr | tblValid
  | srcAddr | srcStride | dstAddr | dstStride | auxAddr | aux2Addr | auxStride | dim
  | bsAddr | bsEnd | bsBitbuf | bsBitcnt | dcPred0 | dcPred1 | dcPred2
  deriving DecidableEq, Repr

/-- The register map from offset 0, four bytes each: identification, control and status (10_state R32). -/
def regMapControl : List Reg := [.id, .version, .ctrl, .status, .cmd, .result, .errAddr, .tblValid]

/-- The register map from offset 0x020: addresses, strides and DIM (10_state R32). -/
def regMapOperands : List Reg :=
  [.srcAddr, .srcStride, .dstAddr, .dstStride, .auxAddr, .aux2Addr, .auxStride, .dim]

/-- The register map from offset 0x040: the bit reader and the predictors (10_state R32). -/
def regMapEntropy : List Reg := [.bsAddr, .bsEnd, .bsBitbuf, .bsBitcnt, .dcPred0, .dcPred1, .dcPred2]

/-- The register map, in order from offset 0, four bytes each (10_state R32). -/
def regMap : List Reg := regMapControl ++ regMapOperands ++ regMapEntropy

/-- The register at a 4-aligned offset, none where the offset is reserved (10_state R32, R53). -/
def regAt (offset : Nat) : Option Reg := regMap[offset / 4]?

/-- What a host read of a register returns (10_state R33 to R52). -/
def readReg (s : State) : Reg → Word
  | .id => 0x49444354
  | .version => 0x00010000
  | .ctrl => ctrlWord s
  | .status => statusWord s
  | .cmd => s.cmd
  | .result => s.result
  | .errAddr => s.errAddr
  | .tblValid => tblValidWord s
  | .srcAddr => s.srcAddr
  | .srcStride => s.srcStride
  | .dstAddr => s.dstAddr
  | .dstStride => s.dstStride
  | .auxAddr => s.auxAddr
  | .aux2Addr => s.aux2Addr
  | .auxStride => s.auxStride
  | .dim => s.dim
  | .bsAddr => s.bsAddr
  | .bsEnd => s.bsEnd
  | .bsBitbuf => s.bitbuf.setWidth 32
  | .bsBitcnt => (BitVec.ofNat 4 s.bitcnt).setWidth 32
  | .dcPred0 => s.pred[0].signExtend 32
  | .dcPred1 => s.pred[1].signExtend 32
  | .dcPred2 => s.pred[2].signExtend 32

/-- What a host read at a 4-aligned offset returns; a reserved offset reads 0 (10_state R53). -/
def readOffset (s : State) (offset : Nat) : Word :=
  match regAt offset with
  | some r => readReg s r
  | none => 0#32

/-- A write that BUSY blocks: CMD and the parameter registers are left alone and WERR is set (10_state R40, R54). -/
def State.unlessBusy (s : State) (t : State) : State := if s.busy then { s with werr := true } else t

/-- A host write to a register (10_state R33 to R54). -/
def writeReg (s : State) (v : Word) : Reg → State
  | .id => s
  | .version => s
  | .ctrl => if v.getLsbD 31 then s.softReset else { s with doneIe := v.getLsbD 0, errIe := v.getLsbD 1 }
  | .status => s.clearFlags v
  | .cmd => s.unlessBusy (s.accept v)
  | .result => s
  | .errAddr => s
  | .tblValid => s
  | .srcAddr => s.unlessBusy { s with srcAddr := v }
  | .srcStride => s.unlessBusy { s with srcStride := v }
  | .dstAddr => s.unlessBusy { s with dstAddr := v }
  | .dstStride => s.unlessBusy { s with dstStride := v }
  | .auxAddr => s.unlessBusy { s with auxAddr := v }
  | .aux2Addr => s.unlessBusy { s with aux2Addr := v }
  | .auxStride => s.unlessBusy { s with auxStride := v }
  | .dim => s.unlessBusy { s with dim := v }
  | .bsAddr => s.unlessBusy (s.setReader v 0#8 0)
  | .bsEnd => s.unlessBusy { s with bsEnd := v }
  | .bsBitbuf => s
  | .bsBitcnt => s
  | .dcPred0 => s.unlessBusy (s.setPred 0 (v.setWidth 16))
  | .dcPred1 => s.unlessBusy (s.setPred 1 (v.setWidth 16))
  | .dcPred2 => s.unlessBusy (s.setPred 2 (v.setWidth 16))

/-- A host write at a 4-aligned offset; at a reserved offset it is ignored and sets no flag (10_state R53). -/
def writeOffset (s : State) (offset : Nat) (v : Word) : State :=
  match regAt offset with
  | some r => writeReg s v r
  | none => s

/-! ### Host accesses (20_memory R80, R85, R98, 70_reset R382) -/

/-- Some byte of a host access lies in the register window. -/
def touchesWindow (s : State) (a : Word) (n : Nat) : Bool := (bytesFrom a n).any (inWindow s.cfg)

/-- The offset of an address in the register window (10_state R32). -/
def windowOffset (s : State) (a : Word) : Nat := (a - s.cfg.engineBase).toNat

/-- A host access to the register window is 32 bits wide and 4-aligned (20_memory R85). -/
def legalRegAccess (s : State) (a : Word) (n : Nat) : Bool :=
  n == 4 && inWindow s.cfg a && windowOffset s a % 4 == 0

/-- The host's access shares a byte with one of the listed engine accesses. -/
def hits (a : Word) (n : Nat) (xs : List Access) : Bool := (bytesFrom a n).any fun b => xs.any fun x => x.covers b

/-- A host read of `n` bytes at `a` (20_memory R80, R85, R98, 70_reset R382). -/
def hostRead (s : State) (a : Word) (n : Nat) : Answer :=
  if touchesWindow s a n then
    if legalRegAccess s a n then .next { s with hostData := (readOffset s (windowOffset s a)).toNat }
    else .refused (.registerAccess a n)
  else if s.busy && hits a n (pendingFootprint s).writes then .fault .hazardHostAccess
  else .next { s with hostData := Memory.load s.mem n a }

/-- A host write of the low `n` bytes of `v` at `a` (20_memory R80, R85, R98, 70_reset R382). -/
def hostWrite (s : State) (a : Word) (n : Nat) (v : Nat) : Answer :=
  if touchesWindow s a n then
    if legalRegAccess s a n then .next (writeOffset s (windowOffset s a) (BitVec.ofNat 32 v))
    else .refused (.registerAccess a n)
  else if s.busy && (hits a n (pendingFootprint s).reads || hits a n (pendingFootprint s).writes) then
    .fault .hazardHostAccess
  else .next (s.setMem (Memory.store s.mem n a v))

end Sys2Proof.Machine
end

