-- ==== Sys2Proof/Machine/Dispatch.lean ====
section
/-! DEFINITION. The meaning of each command, by one direct call (40_control R141). -/

namespace Sys2Proof.Machine

/-- Execute a decoded command as one atomic engine step (00_scope R8, 40_control R141). -/
def exec (i : Instr) (s : State) : Host.Outcome State Fault Refusal :=
  match i with
  | .nop => Sys2Proof.Machine.execNop s
  | .resetDc => Sys2Proof.Machine.execResetDc s
  | .restart => Sys2Proof.Machine.execRestart s
  | .loadDqt => Sys2Proof.Machine.execLoadDqt s
  | .loadDht => Sys2Proof.Machine.execLoadDht s
  | .decodeBlock comp dcsel acsel => Sys2Proof.Machine.execDecodeBlock comp dcsel acsel s
  | .idct qsel lshift raw => Sys2Proof.Machine.execIdct qsel lshift raw s
  | .upsample hr vr => Sys2Proof.Machine.execUpsample hr vr s
  | .ycc2rgb gray => Sys2Proof.Machine.execYcc2rgb gray s
  | .cvt565To8888 => Sys2Proof.Machine.execCvt565To8888 s
  | .cvt8888To565 => Sys2Proof.Machine.execCvt8888To565 s
  | .blend sfmt dfmt => Sys2Proof.Machine.execBlend sfmt dfmt s

end Sys2Proof.Machine
end

