-- ==== Sys2Proof/Machine/Step.lean ====
section
/-! DEFINITION. One step of the two agents: the head of the host's script, or the engine (00_scope R7, R8, 60_exceptions
R341). -/

namespace Sys2Proof.Machine

/-- `Execute(x[CMD])`: an illegal word raises ILLEGAL (40_control R141, 30_encoding R120, R121). -/
def execute (s : State) : Host.Outcome State Fault Refusal :=
  match decode s.cmd with
  | .ok i => exec i s
  | .error _ => .next (s.raise .illegal 0#32)

/-- The engine's move: enabled exactly when BUSY is 1; otherwise it waits for an accepted command (40_control R141,
70_reset R370). -/
def engineStep (s : State) : Host.Outcome State Fault Refusal := if s.busy then execute s else .next s

/-- A host move or the engine's, as the script says. -/
def takeTurn (t : Turn) (s : State) : Host.Outcome State Fault Refusal :=
  match t with
  | .engine => engineStep s
  | .read a n => hostRead s a n
  | .write a n v => hostWrite s a n v
  | .hardwareReset => .next s.resetRegisters

/-- One step: the next move of the script, and the engine's move once the script is used up (log 1; weak fairness,
70_reset R390). -/
def step (s : State) : Host.Outcome State Fault Refusal :=
  match s.turns with
  | [] => engineStep s
  | t :: ts => takeTurn t { s with turns := ts }

/-- The state in which the very next step runs the command word `w`: the word is accepted (40_control R140) and the
engine has the next turn. It stands for the host's write to CMD (log 2). -/
def State.withFetchWord (s : State) (nbits w : Nat) : State :=
  { s.accept (BitVec.ofNat 32 (w % 2 ^ nbits)) with turns := .engine :: s.turns }

end Sys2Proof.Machine
end

