-- ==== Sys2Proof/Safety.lean ====
section
/-! DEFINITION. What counts as a safe step and a good state, in the terms claims use (70_reset R379, 60_exceptions R344). -/

namespace Sys2Proof.Machine

/-- The step goes on: neither a model fault nor a refusal (60_exceptions R344). -/
def Proceeds (o : Answer) : Prop := ∃ t, o = .next t

/-- The flags are legal: ERRCODE is 0 exactly when ERR is 0 and at most 12, DONE and ERR exclude each other, and
RESULT and ERR_ADDR are 0 where acceptance or the other outcome leaves them so (10_state R38, R39, R42, R43,
40_control R140). -/
structure FlagsLegal (s : State) : Prop where
  errcode_zero : s.err = false ↔ s.errcode = 0#4
  errcode_range : s.errcode.toNat ≤ 12
  one_outcome : ¬(s.done = true ∧ s.err = true)
  busy_clear : s.busy = true → s.done = false ∧ s.err = false ∧ s.result = 0#32 ∧ s.errAddr = 0#32
  err_result : s.err = true → s.result = 0#32
  done_errAddr : s.done = true → s.errAddr = 0#32

/-- A Huffman slot holds the canonical code of its own counts, with one stored symbol for each code (41_tables R165,
R167, R168). -/
def Built (t : HuffTable) : Prop :=
  (build (t.rows.toList.map CodeRow.count)).2 = true ∧ totalOf (t.rows.toList.map CodeRow.count) ≤ 256 ∧
  t.rows.toList = (build (t.rows.toList.map CodeRow.count)).1 ∧
  t.values.length = totalOf (t.rows.toList.map CodeRow.count)

/-- The invariant of the machine: canonical memory, legal flags, a bit count of at most 8 (10_state R58), and every
valid Huffman slot well built. -/
structure State.Inv (s : State) : Prop where
  mem : Memory.wf s.mem = true
  flags : FlagsLegal s
  bits : s.bitcnt ≤ 8
  tables : ∀ h : Fin 4, s.hv.get h = true → Built (s.ht.get h)

/-- The R372 state: every register and internal item at its reset value. What R372 gives no value for, the parameters,
the contents of the invalid table slots, canonical memory and the model's own fields, is whatever it is (70_reset R372,
R373; log 27). -/
def AtReset (s : State) : Prop :=
  Memory.wf s.mem = true ∧
  s = { State.reset with
    cfg := s.cfg, qt := s.qt, ht := s.ht, mem := s.mem, turns := s.turns, hostData := s.hostData, draws := s.draws }

/-- *reset-clean*: the R372 state, with any script of moves to come, or a state reached from it with no model fault
(70_reset R379; a fault ends the run, log 11, so a state that is reached has none recorded). -/
inductive ResetClean : State → Prop where
  | reset (s : State) (h : AtReset s) : ResetClean s
  | step (s t : State) (h : ResetClean s) (hs : step s = .next t) : ResetClean t

/-- *idle* (70_reset R379). -/
def Idle (s : State) : Prop := s.busy = false

/-- *tables-loaded*, for the quantisation slots `qs` and the Huffman slots `hs` (70_reset R379). -/
def TablesLoaded (s : State) (qs : List (Fin 3)) (hs : List (Fin 4)) : Prop :=
  (∀ q ∈ qs, s.qv.get q = true) ∧ ∀ h ∈ hs, s.hv.get h = true

/-- *buffers-ok* for a list of accesses: the platform answers each normally (70_reset R379). -/
def BuffersOk (s : State) (plan : List Access) : Prop := ∀ x ∈ plan, respond s.cfg x.addr x.size = .normal

/-- *footprints-disjoint* for a list of accesses (70_reset R379, R381). -/
def FootprintsDisjoint (plan : List Access) : Prop := overlapping plan = false

/-- What the host may not see change by a command: the parameters, the registers no command writes, the last host read
and the host's script (10_state R45 to R49, R64). -/
structure SameParameters (s t : State) : Prop where
  cfg : t.cfg = s.cfg
  doneIe : t.doneIe = s.doneIe
  errIe : t.errIe = s.errIe
  werr : t.werr = s.werr
  cmd : t.cmd = s.cmd
  srcAddr : t.srcAddr = s.srcAddr
  srcStride : t.srcStride = s.srcStride
  dstAddr : t.dstAddr = s.dstAddr
  dstStride : t.dstStride = s.dstStride
  auxAddr : t.auxAddr = s.auxAddr
  aux2Addr : t.aux2Addr = s.aux2Addr
  auxStride : t.auxStride = s.auxStride
  dim : t.dim = s.dim
  bsEnd : t.bsEnd = s.bsEnd
  turns : t.turns = s.turns
  hostData : t.hostData = s.hostData

/-- The entropy state is unchanged: the bit reader and the predictors (10_state R57, R58). -/
structure SameEntropy (s t : State) : Prop where
  bsAddr : t.bsAddr = s.bsAddr
  bitbuf : t.bitbuf = s.bitbuf
  bitcnt : t.bitcnt = s.bitcnt
  pred : t.pred = s.pred

/-- The quantisation slots are unchanged (10_state R55). -/
structure SameQuant (s t : State) : Prop where
  qv : t.qv = s.qv
  qt : t.qt = s.qt

/-- The Huffman slots are unchanged (10_state R56). -/
structure SameHuff (s t : State) : Prop where
  hv : t.hv = s.hv
  ht : t.ht = s.ht

/-- Every byte of memory outside the listed addresses reads as before. -/
def SameMemoryOutside (ws : List Word) (s t : State) : Prop :=
  ∀ a : Word, a ∉ ws → Memory.readByte t.mem a.toNat = Memory.readByte s.mem a.toNat

end Sys2Proof.Machine
end

