-- ==== Sys2Proof/Certificates/Slice0/Obligations.lean ====
section
/-! DEFINITION. The statements about the machine, each from the rules of spec/ that its docstring names, and the words
they share (namespace Sys2Proof.Claims). -/

namespace Sys2Proof.Claims

open Sys2Proof.Machine

/-! ### Words shared by the statements -/

/-- The opcode map: mnemonic's opcode, match, mask (30_encoding R118). -/
def opcodeMap : List (Opcode × Word × Word) :=
  [(.nop, 0x00000000#32, 0xFFFFFFFF#32), (.resetDc, 0x00000001#32, 0xFFFFFFFF#32),
   (.restart, 0x00000002#32, 0xFFFFFFFF#32), (.loadDqt, 0x00000008#32, 0xFFFFFFFF#32),
   (.loadDht, 0x00000009#32, 0xFFFFFFFF#32), (.decodeBlock, 0x00000010#32, 0xFFFFCCFF#32),
   (.idct, 0x00000020#32, 0xFFFFCCFF#32), (.upsample, 0x00000030#32, 0xFFFFF0FF#32),
   (.ycc2rgb, 0x00000038#32, 0xFFFFFEFF#32), (.cvt565To8888, 0x00000050#32, 0xFFFFFFFF#32),
   (.cvt8888To565, 0x00000051#32, 0xFFFFFFFF#32), (.blend, 0x00000060#32, 0xFFFFFCFF#32)]

/-- The reserved OP values (30_encoding R120). -/
def ReservedOp (op : Nat) : Prop :=
  (0x03 ≤ op ∧ op ≤ 0x07) ∨ (0x0A ≤ op ∧ op ≤ 0x0F) ∨ (0x11 ≤ op ∧ op ≤ 0x1F) ∨ (0x21 ≤ op ∧ op ≤ 0x2F) ∨
  (0x31 ≤ op ∧ op ≤ 0x37) ∨ (0x39 ≤ op ∧ op ≤ 0x4F) ∨ (0x52 ≤ op ∧ op ≤ 0x5F) ∨ (0x61 ≤ op ∧ op ≤ 0xFF)

/-- A known OP with a 1 in a reserved bit of its format (30_encoding R121). -/
def ReservedBitSet (w : Word) : Prop := ∃ row ∈ opcodeMap, w &&& 0xFF#32 = row.2.1 ∧ w &&& row.2.2 ≠ row.2.1

/-- The next move is the host's 32-bit write of `v` to the register at offset `off`. -/
def HostWrites (s : State) (off : Nat) (v : Word) (rest : List Turn) : Prop :=
  s.turns = .write (s.cfg.engineBase + BitVec.ofNat 32 off) 4 v.toNat :: rest

/-- The next move is the host's 32-bit read of the register at offset `off`. -/
def HostReads (s : State) (off : Nat) (rest : List Turn) : Prop :=
  s.turns = .read (s.cfg.engineBase + BitVec.ofNat 32 off) 4 :: rest

/-- A 4-aligned offset of the register window (10_state R32). -/
def WindowOffset (off : Nat) : Prop := off < 0x1000 ∧ off % 4 = 0

/-- The byte at `a` answers the engine and holds `b`. -/
def ByteIs (s : State) (a : Word) (b : Byte) : Prop :=
  respond s.cfg a 1 = .normal ∧ Memory.readByte s.mem a.toNat = b

/-- The bytes from `a` answer the engine and hold the list. -/
def BytesAre (s : State) : Word → List Byte → Prop
  | _, [] => True
  | a, b :: bs => ByteIs s a b ∧ BytesAre s (a + 1#32) bs

/-- The big-endian length field at SRC_ADDR holds `len` (00_scope R16, 20_memory R83). -/
def SegmentLength (s : State) (len : Nat) : Prop :=
  len < 65536 ∧ ByteIs s s.srcAddr (BitVec.ofNat 8 (len / 256)) ∧ ByteIs s (s.srcAddr + 1#32) (BitVec.ofNat 8 len)

/-- Whole quantisation tables with the ids and entries listed stand from `p` on (41_tables R160). -/
def QuantSegment (s : State) : Word → List (Fin 3 × QuantTable) → Prop
  | _, [] => True
  | p, (q, t) :: ts =>
    ByteIs s p (BitVec.ofNat 8 q.val) ∧ BytesAre s (p + 1#32) t.toList ∧ QuantSegment s (p + 65#32) ts

/-- Commit the tables of a DQT segment in order (41_tables R160). -/
def commitQuant (s : State) (ts : List (Fin 3 × QuantTable)) : State :=
  ts.foldl (fun s x => { s with qt := s.qt.set x.1 x.2, qv := s.qv.set x.1 true }) s

/-- The id byte of a Huffman slot, Tc in bits 7:4 and Th in bits 3:0 (41_tables R165). -/
def huffId (h : Fin 4) : Byte := if h = 0 then 0x00#8 else if h = 1 then 0x01#8 else if h = 2 then 0x10#8 else 0x11#8

/-- One table of a DHT segment: its slot, its 16 counts, its symbols. -/
structure HuffEntry where
  slot : Fin 4
  counts : List Byte
  values : List Byte

/-- The bytes one table takes in its segment (41_tables R165). -/
def HuffEntry.size (e : HuffEntry) : Nat := 17 + totalOf e.counts

/-- Whole Huffman tables, legal and as listed, stand from `p` on (41_tables R165, R168). -/
def HuffSegment (s : State) : Word → List HuffEntry → Prop
  | _, [] => True
  | p, e :: es =>
    ByteIs s p (huffId e.slot) ∧ e.counts.length = 16 ∧ e.values.length = totalOf e.counts ∧ totalOf e.counts ≤ 256 ∧
    (build e.counts).2 = true ∧ BytesAre s (p + 1#32) e.counts ∧ BytesAre s (p + 17#32) e.values ∧
    HuffSegment s (p + BitVec.ofNat 32 e.size) es

/-- Commit the tables of a DHT segment in order (41_tables R165). -/
def commitHuff (s : State) (es : List HuffEntry) : State :=
  es.foldl (fun s e =>
    let rows := Vector.ofFn fun l : Fin 16 => (build e.counts).1.getD l.val ⟨0#8, 0, -1, 0⟩
    { s with ht := s.ht.set e.slot ⟨rows, e.values⟩, hv := s.hv.set e.slot true }) s

/-- The bytes of a list of tables. -/
def huffSize (es : List HuffEntry) : Nat := (es.map HuffEntry.size).sum

/-- Every register value in the list is a multiple of its element size. -/
def Aligned (regs : List (Word × Nat)) : Prop := ∀ r ∈ regs, r.1.toNat % r.2 = 0

/-- The address and stride registers each command checks, with their element sizes, in the order its rule lists them
(42_entropy R199, 43_idct R230, 44_color R260 and R264, 45_pixel R290 and R292, 46_blend R310). -/
def checkedRegs (s : State) : Instr → List (Word × Nat)
  | .decodeBlock _ _ _ => [(s.dstAddr, 2)]
  | .idct _ _ _ => [(s.srcAddr, 2), (s.dstAddr, 2), (s.dstStride, 2)]
  | .upsample _ _ => [(s.srcAddr, 2), (s.srcStride, 2), (s.dstAddr, 2), (s.dstStride, 2)]
  | .ycc2rgb true => [(s.srcAddr, 2), (s.srcStride, 2), (s.dstAddr, 2), (s.dstStride, 2)]
  | .ycc2rgb false =>
    [(s.srcAddr, 2), (s.srcStride, 2), (s.auxAddr, 2), (s.aux2Addr, 2), (s.auxStride, 2), (s.dstAddr, 2), (s.dstStride, 2)]
  | .cvt565To8888 => [(s.srcAddr, 2), (s.srcStride, 2), (s.dstAddr, 4), (s.dstStride, 4)]
  | .cvt8888To565 => [(s.srcAddr, 4), (s.srcStride, 4), (s.dstAddr, 2), (s.dstStride, 2)]
  | .blend sf df => [(s.srcAddr, bpp sf), (s.srcStride, bpp sf), (s.dstAddr, bpp df), (s.dstStride, bpp df)]
  | _ => []

/-- The table slots a command needs are valid (40_control R142 step 4). -/
def TablesValid (s : State) : Instr → Prop
  | .decodeBlock _ d a => s.hv.get (dcSlot d) = true ∧ s.hv.get (acSlot a) = true
  | .idct q _ raw => raw = false → ∀ k, index3 q = some k → s.qv.get k = true
  | _ => True

/-- The five commands that take a rectangle (40_control R143), with their pixel steps. -/
def rectOf (s : State) : Instr → Option (List Pixel)
  | .upsample hr vr => some (upsamplePixels s hr vr)
  | .ycc2rgb gray => some (yccPixels s gray)
  | .cvt565To8888 => some (widenPixels s)
  | .cvt8888To565 => some (narrowPixels s)
  | .blend sf df => some (blendPixels s sf df)
  | _ => none

/-- DIM holds a rectangle with at least one pixel (10_state R47). -/
def HasArea (s : State) : Prop := width s ≠ 0 ∧ height s ≠ 0

/-- What a rectangle command needs to run to its end: memory in canonical form, an area, aligned registers, an answer to
every access, and no read of a byte it writes (40_control R142, 70_reset R379, R381). -/
structure RectReady (s : State) (i : Instr) (ps : List Pixel) : Prop where
  wf : Memory.wf s.mem = true
  area : HasArea s
  aligned : Aligned (checkedRegs s i)
  answered : BuffersOk s (rectPlan ps)
  disjoint : FootprintsDisjoint (rectPlan ps)

/-- No step after (row, col) in row-major order writes a byte of its destination element (20_memory R100). -/
def LastWriter (s : State) (w h esz row col : Nat) : Prop :=
  ∀ row' < h, ∀ col' < w, row * w + col < row' * w + col' →
    ∀ a ∈ bytesFrom (elem s.dstAddr s.dstStride row col esz) esz,
      a ∉ bytesFrom (elem s.dstAddr s.dstStride row' col' esz) esz

/-- The command completes with RESULT 0; only memory changes beside STATUS and RESULT; every destination element that no
later step overwrites holds its value; every byte outside the destination elements reads as before. -/
def RectCompletes (s : State) (o : Answer) (esz : Nat) (value : Nat → Nat → Nat) : Prop :=
  ∃ m, o = .next { s with mem := m, busy := false, done := true, result := 0#32 } ∧
    (∀ row < height s, ∀ col < width s, LastWriter s (width s) (height s) esz row col →
      Memory.load m esz (elem s.dstAddr s.dstStride row col esz) = value row col) ∧
    ∀ a : Word, (∀ row < height s, ∀ col < width s, a ∉ bytesFrom (elem s.dstAddr s.dstStride row col esz) esz) →
      Memory.readByte m a.toNat = Memory.readByte s.mem a.toNat

/-- The parameter registers with their offsets, and the write each makes while BUSY is 0 (10_state R45 to R49, R52,
R54). -/
def parameterWrites (s : State) (v : Word) : List (Nat × State) :=
  [(0x020, { s with srcAddr := v }), (0x024, { s with srcStride := v }), (0x028, { s with dstAddr := v }),
   (0x02C, { s with dstStride := v }), (0x030, { s with auxAddr := v }), (0x034, { s with aux2Addr := v }),
   (0x038, { s with auxStride := v }), (0x03C, { s with dim := v }),
   (0x040, { s with bsAddr := v, bitcnt := 0, bitbuf := 0#8 }), (0x044, { s with bsEnd := v }),
   (0x050, { s with pred := s.pred.set 0 (v.extractLsb' 0 16) }),
   (0x054, { s with pred := s.pred.set 1 (v.extractLsb' 0 16) }),
   (0x058, { s with pred := s.pred.set 2 (v.extractLsb' 0 16) })]

/-- The offsets of the registers a host write never changes: ID, VERSION, RESULT, ERR_ADDR, TBL_VALID, BS_BITBUF and
BS_BITCNT (10_state R54). -/
def readOnlyOffsets : List Nat := [0x000, 0x004, 0x014, 0x018, 0x01C, 0x048, 0x04C]

/-- The plan of accesses of a command whose accesses do not depend on what it reads (40_control R143, 43_idct R230). -/
def planOf (s : State) : Instr → Option (List Access)
  | .idct _ _ _ => some (idctPlan s)
  | i => (rectOf s i).map rectPlan

/-- The accesses of a command with a fixed list of them, in the order of its pseudocode: 64 reads and 64 writes for IDCT,
the 64 coefficient writes for DECODE_BLOCK, and for a rectangle command those of each pixel in row-major order with the
pixel's number as their step, where `modify` is BLEND's read of its destination (20_memory R100; 42_entropy R199, 43_idct
R230, 44_color R260 and R264, 45_pixel R290 and R292, 46_blend R310 and R317). -/
def accessSequence (s : State) (i : Instr) : List Access :=
  let cells := fun (w h : Nat) (f : Nat → Nat → List Access) =>
    (List.range h).flatMap fun row => (List.range w).flatMap fun col => f row col
  let w := s.dim.toNat % 65536
  let pixels := fun (f : Nat → Nat → Nat → List Access) =>
    cells w (s.dim.toNat / 65536) fun row col => f row col (row * w + col)
  let src := fun row col step n => (⟨.read, elem s.srcAddr s.srcStride row col n, n, step⟩ : Access)
  let dst := fun kind row col step n => (⟨kind, elem s.dstAddr s.dstStride row col n, n, step⟩ : Access)
  let chroma := fun base row col step => (⟨.read, elem base s.auxStride row col 2, 2, step⟩ : Access)
  let coefs := fun kind base => (List.range 64).map fun i => (⟨kind, base + BitVec.ofNat 32 (2 * i), 2, 0⟩ : Access)
  match i with
  | .decodeBlock _ _ _ => coefs .write s.dstAddr
  | .idct _ _ _ => coefs .read s.srcAddr ++ cells 8 8 fun row col => [dst .write row col 0 2]
  | .upsample hr vr =>
    pixels fun row col n => [src (row / vr.toNat) (col / hr.toNat) n 2, dst .write row col n 2]
  | .ycc2rgb true => pixels fun row col n => [src row col n 2, dst .write row col n 2]
  | .ycc2rgb false =>
    pixels fun row col n =>
      [src row col n 2, chroma s.auxAddr row col n, chroma s.aux2Addr row col n, dst .write row col n 2]
  | .cvt565To8888 => pixels fun row col n => [src row col n 2, dst .write row col n 4]
  | .cvt8888To565 => pixels fun row col n => [src row col n 4, dst .write row col n 2]
  | .blend .rgb565 df => pixels fun row col n => [src row col n 2, dst .write row col n (bpp df)]
  | .blend .argb8888 df =>
    pixels fun row col n => [src row col n 4, dst .modify row col n (bpp df), dst .write row col n (bpp df)]
  | _ => []

/-- The command's prologue lets it run its body: legal field values, valid tables, an area, aligned registers (40_control
R142, R143). -/
def ProloguePasses (s : State) (i : Instr) : Prop :=
  WellFormed i = true ∧ TablesValid s i ∧ (rectOf s i ≠ none → HasArea s) ∧ Aligned (checkedRegs s i)

/-- Reads of the `n` bytes from `a`, one after the other. -/
def byteReads (a : Word) (n : Nat) : List Access := (List.range n).map fun i => ⟨.read, a + BitVec.ofNat 32 i, 1, 0⟩

/-- Some access of the list touches the byte at `a`. -/
def Touches (xs : List Access) (a : Word) : Prop := ∃ x ∈ xs, (a - x.addr).toNat < x.size

/-- The run of zeros an AC symbol stands for, its high nibble (42_entropy R201). -/
def acRun (rs : Byte) : Nat := rs.toNat / 16

/-- The size of the value after an AC symbol, its low nibble (42_entropy R201). -/
def acSize (rs : Byte) : Nat := rs.toNat % 16

/-- An AC symbol that places a value at position `k + run`: not end-of-block, of size 0 only with run 15 (ZRL), of size at
most 10, within position 63 (42_entropy R199 to R201). -/
def AcLegal (k : Nat) (rs : Byte) : Prop :=
  rs ≠ 0x00#8 ∧ (acSize rs = 0 → acRun rs = 15) ∧ acSize rs ≤ 10 ∧ k + acRun rs ≤ 63

/-- From position `k` and reader `r`, the stream holds the legal AC symbols and value bits listed, and after them stand
position `k'` and reader `r'` (42_entropy R199). -/
def AcSymbols (s : State) (slot : Fin 4) : Nat → Reader → List (Byte × Nat) → Nat → Reader → Prop
  | k, r, [], k', r' => k' = k ∧ r' = r
  | k, r, (rs, v) :: items, k', r' =>
    AcLegal k rs ∧ ∃ r1 r2, huffDecode s slot r = .got rs r1 ∧ receive s (acSize rs) r1 = .got v r2 ∧
      AcSymbols s slot (k + acRun rs + 1) r2 items k' r'

/-- The positions and values that AC symbols place, from position `k` (42_entropy R199). -/
def acPlaces : Nat → List (Byte × Nat) → List (Nat × Int)
  | _, [] => []
  | k, (rs, v) :: items => (k + acRun rs, extend v (acSize rs)) :: acPlaces (k + acRun rs + 1) items

/-- LOAD_DQT or LOAD_DHT comes to read the byte at `a` of its segment, every byte before it answered: a byte of the
length field, or after whole legal tables an id byte, an entry, a count or a symbol (41_tables R160, R165). -/
def LoadReaches (s : State) : Instr → Word → Prop
  | .loadDqt, a =>
    a = s.srcAddr ∨ (respond s.cfg s.srcAddr 1 = .normal ∧ a = s.srcAddr + 1#32) ∨
    ∃ (len : Nat) (ts : List (Fin 3 × QuantTable)), SegmentLength s len ∧ 67 + 65 * ts.length ≤ len ∧
      QuantSegment s (s.srcAddr + 2#32) ts ∧
      let p := s.srcAddr + BitVec.ofNat 32 (2 + 65 * ts.length)
      a = p ∨ ∃ (q : Fin 3) (got : List Byte), ByteIs s p (BitVec.ofNat 8 q.val) ∧ got.length < 64 ∧
        BytesAre s (p + 1#32) got ∧ a = p + 1#32 + BitVec.ofNat 32 got.length
  | .loadDht, a =>
    a = s.srcAddr ∨ (respond s.cfg s.srcAddr 1 = .normal ∧ a = s.srcAddr + 1#32) ∨
    ∃ (len : Nat) (es : List HuffEntry), SegmentLength s len ∧ 19 + huffSize es ≤ len ∧
      HuffSegment s (s.srcAddr + 2#32) es ∧
      let p := s.srcAddr + BitVec.ofNat 32 (2 + huffSize es)
      a = p ∨ ∃ (h : Fin 4) (counts : List Byte), ByteIs s p (huffId h) ∧ BytesAre s (p + 1#32) counts ∧
        (counts.length < 16 ∧ a = p + 1#32 + BitVec.ofNat 32 counts.length ∨
          counts.length = 16 ∧ totalOf counts ≤ 256 ∧ (build counts).2 = true ∧
          19 + huffSize es + totalOf counts ≤ len ∧
          ∃ got : List Byte, got.length < totalOf counts ∧ BytesAre s (p + 17#32) got ∧
            a = p + 17#32 + BitVec.ofNat 32 got.length)
  | _, _ => False

/-- The eight results of a pass in closed form, from the sums and products of its inputs: `p`, `q` of places 0 and 4,
`e`, `g` of places 2 and 6, `a`, `b` of places 1 and 7, `c`, `d` of places 3 and 5; the results are divided by `n`,
rounding down (43_idct R236, R237). -/
def passResults (n p q e g a b c d : Int) : List Int :=
  let plus := (181 * (a - c + (b - d)) + 128) / 256
  let minus := (181 * (a - c - (b - d)) + 128) / 256
  [(p + e + (a + c)) / n, (q + g + plus) / n, (q - g + minus) / n, (p - e + (b + d)) / n,
   (p - e - (b + d)) / n, (q - g - minus) / n, (q + g - plus) / n, (p + e - (a + c)) / n]

/-- The first `n` code lengths of a slot match no prefix of `code`, which is `n` bits long (42_entropy R195). -/
def NoMatch (t : HuffTable) (n code : Nat) : Prop :=
  ∀ l : Fin 16, l.val < n → (t.rows.get l).maxcode < 0 ∨ (t.rows.get l).maxcode < ((code / 2 ^ (n - 1 - l.val) : Nat) : Int)

end Sys2Proof.Claims

open Sys2Proof Sys2Proof.Machine Sys2Proof.Claims

/-! ### Encoding -/

/-- Decoding the word of a command gives the command back, with every operand field at every value its bits admit, the
illegal field values included (30_encoding §2 Opcode map, §4 Assembler syntax). -/
def Obligations.DecodeOfEncodeIsTheCommand : Prop := ∀ i : Instr, decode (encode i) = .ok i

/-- Each command has one word: a word that decodes is the word its command encodes to (30_encoding §1 Command word, §4
Assembler syntax). -/
def Obligations.EncodeOfDecodeIsTheWord : Prop := ∀ (w : Word) (i : Instr), decode w = .ok i → encode i = w

/-- Words written out in the spec's examples decode to their commands (95_test_vectors §2; 30_encoding §4). -/
def Obligations.WordsOfTheSpecDecode : Prop :=
  decode 0x00000000 = .ok .nop ∧ decode 0x00000001 = .ok .resetDc ∧ decode 0x00000002 = .ok .restart ∧
  decode 0x00000008 = .ok .loadDqt ∧ decode 0x00000009 = .ok .loadDht ∧
  decode 0x00002010 = .ok (.decodeBlock 0 false true) ∧ decode 0x00001020 = .ok (.idct 0 true false) ∧
  decode 0x00000630 = .ok (.upsample 2 1) ∧ decode 0x00000138 = .ok (.ycc2rgb true) ∧
  decode 0x00000050 = .ok .cvt565To8888 ∧ decode 0x00000051 = .ok .cvt8888To565 ∧
  decode 0x00000160 = .ok (.blend .argb8888 .rgb565)

/-- The opcode map: a word selects an opcode exactly when its bits under the opcode's mask are the opcode's match
(30_encoding R118). -/
def Obligations.WordSelectsItsOpcodeByMaskAndMatch : Prop :=
  ∀ w : Word, ∀ row ∈ opcodeMap, w &&& row.2.2 = row.2.1 ↔ ∃ i, decode w = .ok i ∧ instrOpcode i = row.1

/-- A word with a reserved OP, or a known OP and a reserved bit set, once accepted raises ILLEGAL with ERR_ADDR 0 and
changes nothing but CMD, STATUS, RESULT and ERR_ADDR, whatever the state (30_encoding R120, R121). -/
def Obligations.ReservedWordRaisesIllegal : Prop :=
  ∀ (s : State) (w : Word), ReservedOp (w.toNat % 256) ∨ ReservedBitSet w →
    step (s.withFetchWord 32 w.toNat) =
      .next { s with
        cmd := w, busy := false, done := false, err := true, errcode := 1#4, result := 0#32, errAddr := 0#32 }

/-- Every word is exactly one of a legal command with legal field values, a word that raises ILLEGAL in every state, and
an UPSAMPLE that raises SAMPLING in every state (30_encoding §3 Illegal and reserved encodings). -/
def Obligations.EveryWordIsLegalOrIllegalOrSampling : Prop :=
  ∀ w : Word,
    let legal := ∃ i, decode w = .ok i ∧ WellFormed i = true
    let illegal := ∀ s : State, s.cmd = w → execute s = .next (s.raise .illegal 0#32)
    let sampling := (∃ hr vr, decode w = .ok (.upsample hr vr)) ∧
      ∀ s : State, s.cmd = w → execute s = .next (s.raise .sampling 0#32)
    (legal ∧ ¬illegal ∧ ¬sampling) ∨ (¬legal ∧ illegal ∧ ¬sampling) ∨ (¬legal ∧ ¬illegal ∧ sampling)

/-! ### The command cycle -/

/-- A step runs the decoded command: right after acceptance of its word, and at any pending command when the script is
used up or gives the engine its turn (40_control §1 The command cycle). The model's choices: the script of turns (log 1),
and withFetchWord, which stands for the host's accepted write of the word to CMD (log 2). The model's reading: the engine's
move with BUSY 0 leaves the state as it is, its turn used up (log 20). -/
def Obligations.StepRunsTheDecodedCommand : Prop :=
  (∀ (s : State) (w : Word) (i : Instr), decode w = .ok i →
    step (s.withFetchWord 32 w.toNat) = exec i (s.accept w)) ∧
  (∀ (s : State) (i : Instr), s.busy = true → decode s.cmd = .ok i →
    (s.turns = [] → step s = exec i s) ∧
    ∀ ts, s.turns = .engine :: ts → step s = exec i { s with turns := ts }) ∧
  (∀ s : State, s.busy = false → (s.turns = [] → step s = .next s) ∧
    ∀ ts, s.turns = .engine :: ts → step s = .next { s with turns := ts })

/-- Acceptance: a host write to CMD with BUSY 0 writes CMD, sets BUSY, clears DONE, ERR, ERRCODE, RESULT and ERR_ADDR
and nothing else; with BUSY 1 it is ignored and sets WERR (40_control R140). -/
def Obligations.AcceptanceOfACommandWord : Prop :=
  ∀ (s : State) (w : Word) (ts : List Turn), HostWrites s 0x010 w ts →
    (s.busy = false → step s = .next { s with
      turns := ts, cmd := w, busy := true, done := false, err := false, errcode := 0#4, result := 0#32,
      errAddr := 0#32 }) ∧
    (s.busy = true → step s = .next { s with turns := ts, werr := true })

/-- Exactly one outcome: a command that answers a next state leaves BUSY 0 and exactly one of DONE and ERR set, from any
state with both clear, as acceptance leaves them (40_control §1, 60_exceptions §1 Raising an error). Raising an error
clears BUSY, sets ERR, writes the code's number to ERRCODE and the address to ERR_ADDR, and changes nothing else;
completing with v clears BUSY, sets DONE, writes v to RESULT, and changes nothing else. -/
def Obligations.EveryCommandEndsInExactlyOneOutcome : Prop :=
  (∀ (i : Instr) (s t : State), s.done = false → s.err = false → exec i s = .next t →
    t.busy = false ∧ (t.done = true ∧ t.err = false ∨ t.done = false ∧ t.err = true)) ∧
  (∀ e ∈ [(ErrCode.illegal, 1#4), (.align, 2#4), (.bus, 3#4), (.segLength, 4#4), (.tableSpec, 5#4), (.huffTable, 6#4),
      (.noTable, 7#4), (.huffCode, 8#4), (.coef, 9#4), (.trunc, 10#4), (.marker, 11#4), (.sampling, 12#4)],
    ∀ (s : State) (a : Word), s.raise e.1 a = { s with busy := false, err := true, errcode := e.2, errAddr := a }) ∧
  ∀ (s : State) (v : Word), s.complete v = { s with busy := false, done := true, result := v }

/-! ### The register window -/

/-- ID and VERSION read their constants and ignore writes; reserved offsets read 0 and ignore writes, whatever BUSY is;
reserved bits of defined registers read 0, and writes to the reserved bits of CTRL and STATUS are ignored (10_state R33,
R34, R53). -/
def Obligations.IdentificationAndReservedRegisters : Prop :=
  ∀ s : State,
    readOffset s 0x000 = 0x49444354#32 ∧ readOffset s 0x004 = 0x00010000#32 ∧
    (∀ v, writeOffset s 0x000 v = s ∧ writeOffset s 0x004 v = s) ∧
    (∀ off, WindowOffset off → 0x05C ≤ off → readOffset s off = 0#32 ∧ ∀ v, writeOffset s off v = s) ∧
    readOffset s 0x008 &&& 0xFFFFFFFC#32 = 0#32 ∧ readOffset s 0x00C &&& 0xFFFFF0F0#32 = 0#32 ∧
    readOffset s 0x01C &&& 0xFFFFFF08#32 = 0#32 ∧ readOffset s 0x048 &&& 0xFFFFFF00#32 = 0#32 ∧
    readOffset s 0x04C &&& 0xFFFFFFF0#32 = 0#32 ∧
    (∀ v, writeOffset s 0x008 v = writeOffset s 0x008 (v &&& 0x80000003#32)) ∧
    ∀ v, writeOffset s 0x00C v = writeOffset s 0x00C (v &&& 0x0000000E#32)

/-- A host write to a parameter register takes effect while BUSY is 0 and is ignored with WERR while BUSY is 1; a write
to a read-only register is always ignored and never sets WERR (10_state R54). Written with BUSY 0, an address, stride, DIM
or bit-stream register reads back the value, and DC_PREDn its bits 15:0 sign-extended. A step on the host's 32-bit write or
read at any 4-aligned offset of the window is exactly that register write, or leaves what the register reads in the
model's hostData (log 13), so what the statements say of readOffset and writeOffset is what the host's steps do. -/
def Obligations.ParameterAndReadOnlyRegisterWrites : Prop :=
  ∀ (s : State) (v : Word),
    (∀ p ∈ parameterWrites s v,
      writeOffset s p.1 v = if s.busy then { s with werr := true } else p.2) ∧
    (∀ off ∈ readOnlyOffsets, writeOffset s off v = s) ∧
    (s.busy = false →
      (∀ off ∈ [0x020, 0x024, 0x028, 0x02C, 0x030, 0x034, 0x038, 0x03C, 0x040, 0x044],
        readOffset (writeOffset s off v) off = v) ∧
      ∀ off ∈ [0x050, 0x054, 0x058], readOffset (writeOffset s off v) off = (v.extractLsb' 0 16).signExtend 32) ∧
    ∀ (off : Nat) (ts : List Turn), WindowOffset off →
      (HostWrites s off v ts → step s = .next (writeOffset { s with turns := ts } off v)) ∧
      (HostReads s off ts → step s = .next { s with turns := ts, hostData := (readOffset s off).toNat })

/-- STATUS: what each bit reads, and the write rule: a 1 in bit 1, 2 or 3 clears that flag, ERRCODE going to 0 with ERR;
nothing else changes, whatever BUSY is (10_state R36). What every other register of the window reads: CTRL its two enables;
CMD, RESULT, ERR_ADDR and each address, stride, DIM and bit-stream register its value; TBL_VALID bit s = QV[s] and bit
4+s = HV[s]; BS_BITBUF and BS_BITCNT the bit reader's buffer and count; DC_PREDn its predictor sign-extended; every other
bit 0 (10_state R35, R41 to R52). -/
def Obligations.StatusReadsItsFlagsAndClearsOnOnes : Prop :=
  ∀ (s : State) (v : Word),
    (readOffset s 0x00C).getLsbD 0 = s.busy ∧ (readOffset s 0x00C).getLsbD 1 = s.done ∧
    (readOffset s 0x00C).getLsbD 2 = s.err ∧ (readOffset s 0x00C).getLsbD 3 = s.werr ∧
    (readOffset s 0x00C).extractLsb' 4 4 = 0#4 ∧ (readOffset s 0x00C).extractLsb' 8 4 = s.errcode ∧
    (readOffset s 0x00C).extractLsb' 12 20 = 0#20 ∧
    writeOffset s 0x00C v = { s with
      done := if v.getLsbD 1 then false else s.done
      err := if v.getLsbD 2 then false else s.err
      errcode := if v.getLsbD 2 then 0#4 else s.errcode
      werr := if v.getLsbD 3 then false else s.werr } ∧
    (readOffset s 0x008).getLsbD 0 = s.doneIe ∧ (readOffset s 0x008).getLsbD 1 = s.errIe ∧
    (readOffset s 0x008).extractLsb' 2 30 = 0#30 ∧
    (∀ q : Fin 3, (readOffset s 0x01C).getLsbD q.val = s.qv.get q) ∧ (readOffset s 0x01C).getLsbD 3 = false ∧
    (∀ h : Fin 4, (readOffset s 0x01C).getLsbD (4 + h.val) = s.hv.get h) ∧ (readOffset s 0x01C).extractLsb' 8 24 = 0#24 ∧
    (∀ p ∈ [(0x010, s.cmd), (0x014, s.result), (0x018, s.errAddr), (0x020, s.srcAddr), (0x024, s.srcStride),
        (0x028, s.dstAddr), (0x02C, s.dstStride), (0x030, s.auxAddr), (0x034, s.aux2Addr), (0x038, s.auxStride),
        (0x03C, s.dim), (0x040, s.bsAddr), (0x044, s.bsEnd)], readOffset s p.1 = p.2) ∧
    (readOffset s 0x048).toNat = s.bitbuf.toNat ∧ (s.bitcnt ≤ 8 → (readOffset s 0x04C).toNat = s.bitcnt) ∧
    ∀ c : Fin 3, readOffset s (0x050 + 4 * c.val) = (s.pred.get c).signExtend 32

/-- A soft reset, BUSY 0 or 1: every register and internal item takes its reset value, nothing stays pending, DONE and
ERR are not set; memory is unchanged with BUSY 0, and outside the pending command's write set with BUSY 1 (70_reset §1
Reset; the contents of QT and HT after reset are not stated). The model's reading: a pending command that would end in its
prologue has an empty write set (log 25), and the machine's parameters are kept (log 15). -/
def Obligations.SoftResetClearsTheEngine : Prop :=
  ∀ (s : State) (v : Word), v.getLsbD 31 = true →
    let t := writeOffset s 0x008 v
    t.doneIe = false ∧ t.errIe = false ∧ t.busy = false ∧ t.done = false ∧ t.err = false ∧ t.werr = false ∧
    t.errcode = 0#4 ∧ t.cmd = 0#32 ∧ t.result = 0#32 ∧ t.errAddr = 0#32 ∧
    t.srcAddr = 0#32 ∧ t.srcStride = 0#32 ∧ t.dstAddr = 0#32 ∧ t.dstStride = 0#32 ∧ t.auxAddr = 0#32 ∧
    t.aux2Addr = 0#32 ∧ t.auxStride = 0#32 ∧ t.dim = 0#32 ∧ t.bsAddr = 0#32 ∧ t.bsEnd = 0#32 ∧
    t.bitbuf = 0#8 ∧ t.bitcnt = 0 ∧ (∀ c : Fin 3, t.pred.get c = 0#16) ∧ (∀ q : Fin 3, t.qv.get q = false) ∧
    (∀ h : Fin 4, t.hv.get h = false) ∧ t.cfg = s.cfg ∧
    (s.busy = false → t.mem = s.mem) ∧
    (s.busy = true → SameMemoryOutside (writeBytes (pendingFootprint s).writes) s t)

/-- Hardware reset sets every register and internal item to its reset value and does not touch system memory; after it
the engine is idle and IRQ is 0; State.reset has the same values (70_reset §1 Reset; the contents of QT and HT after
reset are not stated). The model's reading: memory is unchanged also where a command was pending, none of whose writes
are made (log 14), and the machine's parameters are kept (log 15). -/
def Obligations.HardwareResetLeavesTheResetValues : Prop :=
  ∀ (s : State) (ts : List Turn), s.turns = .hardwareReset :: ts →
    ∃ t, step s = .next t ∧ t.mem = s.mem ∧ t.cfg = s.cfg ∧ t.turns = ts ∧
      ∀ u ∈ [t, State.reset],
        u.busy = false ∧ irq u = false ∧ readOffset u 0x008 = 0#32 ∧ readOffset u 0x00C = 0#32 ∧
        (∀ off, WindowOffset off → 0x008 ≤ off → readOffset u off = 0#32) ∧
        readOffset u 0x000 = 0x49444354#32 ∧ readOffset u 0x004 = 0x00010000#32 ∧
        u.bitcnt = 0 ∧ (∀ c : Fin 3, u.pred.get c = 0#16) ∧ (∀ q : Fin 3, u.qv.get q = false) ∧
        ∀ h : Fin 4, u.hv.get h = false

/-- The interrupt line: high exactly when DONE with its enable or ERR with its enable is set; acceptance lowers it;
writing 1 to both STATUS flags lowers it; a completion raises it exactly when DONE_IE is set and an error exactly when
ERR_IE is set (60_exceptions §3 Interrupts). A CTRL write with bit 31 clear sets DONE_IE and ERR_IE from bits 0 and 1 and
changes nothing else, whatever BUSY is, so it never sets WERR (10_state §2; 70_reset §3 Hazards). -/
def Obligations.InterruptFollowsFlagsAndEnables : Prop :=
  ∀ s : State,
    (irq s = true ↔ s.done = true ∧ s.doneIe = true ∨ s.err = true ∧ s.errIe = true) ∧
    (∀ w, irq (s.accept w) = false) ∧ (∀ v : Word, v.getLsbD 1 = true → v.getLsbD 2 = true →
      irq (writeOffset s 0x00C v) = false) ∧
    (∀ v, s.err = false → irq (s.complete v) = s.doneIe) ∧ (∀ c a, s.done = false → irq (s.raise c a) = s.errIe) ∧
    ∀ v : Word, v.getLsbD 31 = false →
      writeOffset s 0x008 v = { s with doneIe := v.getLsbD 0, errIe := v.getLsbD 1 } ∧
      irq (writeOffset s 0x008 v) = (s.done && v.getLsbD 0 || s.err && v.getLsbD 1)

/-- A host access with a byte in the register window that is not 32 bits wide at a 4-aligned offset is refused, read or
write (20_memory §2 Alignment, widths and element formats). The model's reading: an access that lies only partly in the
window is one of these (log 23). -/
def Obligations.RegisterAccessOfAnotherWidthIsRefused : Prop :=
  ∀ (s : State) (a : Word) (n v : Nat) (ts : List Turn),
    (∃ b ∈ bytesFrom a n, (b - s.cfg.engineBase).toNat < 0x1000) →
    ¬(n = 4 ∧ (a - s.cfg.engineBase).toNat < 0x1000 ∧ (a - s.cfg.engineBase).toNat % 4 = 0) →
    (s.turns = .read a n :: ts → step s = .refused (.registerAccess a n)) ∧
    (s.turns = .write a n v :: ts → step s = .refused (.registerAccess a n))

/-- Host accesses to system memory while a command is pending: a write that touches its read set or write set and a read
that touches its write set are model faults; every other access is plain memory, and so is every access with BUSY 0
(70_reset §3 Hazards, 20_memory §3 Ordering). Plain memory, the
engine's and the host's alike, is little-endian: an element of 2 or 4 bytes has its low byte at the lowest address, a store
leaves byte i of the value (from the low end) at address a + i, modulo 2^32, and every other byte as it was (20_memory §1
Address spaces; that a byte read back is the one written is said of memory in its canonical form, which is the model's
own). The footprint of a command whose prologue passes: for IDCT and the rectangles the reads and the writes of its
accesses; for DECODE_BLOCK the entropy bytes it reads and the 128 destination bytes; for a segment load the bytes it comes
to read and gets, SRC_ADDR to SRC_ADDR + L for one that completes, and no writes. The model's choices: that a command ended
by its prologue has none (log 25) and that what counts is what the command reaches (log 10); host accesses of any byte count
(log 13), and plain memory at every address outside the window, also where nothing decodes (log 22). -/
def Obligations.HostAccessAgainstAPendingFootprint : Prop :=
  (∀ (s : State) (a : Word) (n v : Nat) (ts : List Turn),
    (∀ b ∈ bytesFrom a n, 0x1000 ≤ (b - s.cfg.engineBase).toNat) →
    let u := { s with turns := ts }
    let inReads := ∃ b ∈ bytesFrom a n, Touches (pendingFootprint u).reads b
    let inWrites := ∃ b ∈ bytesFrom a n, Touches (pendingFootprint u).writes b
    (s.turns = .write a n v :: ts →
      (s.busy = true ∧ (inReads ∨ inWrites) → step s = .fault .hazardHostAccess) ∧
      (¬(s.busy = true ∧ (inReads ∨ inWrites)) → step s = .next { u with mem := Memory.store s.mem n a v })) ∧
    (s.turns = .read a n :: ts →
      (s.busy = true ∧ inWrites → step s = .fault .hazardHostAccess) ∧
      (¬(s.busy = true ∧ inWrites) → step s = .next { u with hostData := Memory.load s.mem n a }))) ∧
  (∀ (m : Memory) (a : Word),
    let byte := fun i => (Memory.readByte m (a + BitVec.ofNat 32 i).toNat).toNat
    Memory.load m 1 a = byte 0 ∧ Memory.load m 2 a = byte 0 + 2 ^ 8 * byte 1 ∧
    Memory.load m 4 a = byte 0 + 2 ^ 8 * byte 1 + 2 ^ 16 * byte 2 + 2 ^ 24 * byte 3) ∧
  (∀ (m : Memory) (a : Word) (n v : Nat), n ≤ 2 ^ 32 →
    (Memory.wf m = true → ∀ i < n,
      Memory.readByte (Memory.store m n a v) (a + BitVec.ofNat 32 i).toNat = BitVec.ofNat 8 (v / 2 ^ (8 * i))) ∧
    ∀ x : Word, n ≤ (x - a).toNat → Memory.readByte (Memory.store m n a v) x.toNat = Memory.readByte m x.toNat) ∧
  (∀ (a b : Word) (n : Nat), b ∈ bytesFrom a n ↔ (b - a).toNat < n) ∧
  (∀ (xs : List Access) (b : Word), b ∈ writeBytes xs ↔ Touches (xs.filter fun x => x.kind = .write) b) ∧
  (∀ s : State, (∀ i, decode s.cmd = .ok i → pendingFootprint s = footprint i s) ∧
    ((∀ i, decode s.cmd ≠ .ok i) → pendingFootprint s = ⟨[], []⟩)) ∧
  ∀ (s : State) (i : Instr),
    let f := footprint i s
    writeSet i s = writeBytes f.writes ∧ (¬ProloguePasses s i → f = ⟨[], []⟩) ∧
    (ProloguePasses s i →
      f.writes = (accessSequence s i).filter (fun x => x.kind = .write) ∧
      (planOf s i ≠ none → f.reads = (accessSequence s i).filter fun x => x.kind ≠ .write) ∧
      (i ∈ [.nop, .resetDc, .restart] → f.reads = []) ∧
      ∀ comp d a c, i = .decodeBlock comp d a → index3 comp = some c →
        (∀ b r, decodeCoeffs s c (dcSlot d) (acSlot a) = .got b r → f.reads = r.seen) ∧
        ∀ e seen, decodeCoeffs s c (dcSlot d) (acSlot a) = .stop e seen → f.reads = seen) ∧
    (i = .loadDqt ∨ i = .loadDht →
      (∀ a, Touches f.reads a ↔ LoadReaches s i a ∧ respond s.cfg a 1 = .normal) ∧
      ∀ len t, SegmentLength s len → s.err = false → exec i s = .next t → t.err = false →
        ∀ a, Touches f.reads a ↔ (a - s.srcAddr).toNat < len)

/-! ### Errors of the prologue and hazards -/

/-- Field values that are illegal although the word matches: 3 in COMP, QSEL, HR or VR raises ILLEGAL, and 0 in HR or VR
raises SAMPLING unless a 3 makes it ILLEGAL, in every state and with no other effect (30_encoding R122). -/
def Obligations.IllegalFieldValuesRaise : Prop :=
  ∀ (s : State) (d a l r : Bool) (hr vr : BitVec 2),
    exec (.decodeBlock 3 d a) s = .next (s.raise .illegal 0#32) ∧
    exec (.idct 3 l r) s = .next (s.raise .illegal 0#32) ∧
    (hr = 3#2 ∨ vr = 3#2 → exec (.upsample hr vr) s = .next (s.raise .illegal 0#32)) ∧
    (hr ≠ 3#2 → vr ≠ 3#2 → hr = 0#2 ∨ vr = 0#2 → exec (.upsample hr vr) s = .next (s.raise .sampling 0#32))

/-- A command whose table slot is invalid raises NO_TABLE with ERR_ADDR 0 before any alignment check, with no other
effect (40_control §1 The command cycle, prologue step 4). The slots: DCSEL, 2 + ACSEL, and QSEL or COMP as a number from
0 to 2 (30_encoding §2 Opcode map). -/
def Obligations.MissingTableRaises : Prop :=
  (∀ (s : State) (i : Instr), WellFormed i = true → ¬TablesValid s i → exec i s = .next (s.raise .noTable 0#32)) ∧
  (∀ b : Bool, (dcSlot b).val = b.toNat ∧ (acSlot b).val = 2 + b.toNat) ∧
  ∀ (f : BitVec 2) (k : Fin 3), index3 f = some k ↔ f.toNat = k.val

/-- The alignment check: the first register, in the order the command's rule lists, that is not a multiple of its element
size raises ALIGN with its value, before any access and with no other effect; elements of an aligned base and stride are
aligned (20_memory §2 Alignment, widths and element formats). The element address is base + row·stride + col·esz modulo
2^32 (00_scope §6), a pixel takes 2 or 4 bytes (20_memory §2), and DIM holds WIDTH in bits 15:0 and HEIGHT in bits 31:16
(10_state §2). -/
def Obligations.FirstMisalignedRegisterRaises : Prop :=
  (∀ (s : State) (i : Instr) (before after : List (Word × Nat)) (v : Word) (n : Nat),
    WellFormed i = true → TablesValid s i → (rectOf s i ≠ none → HasArea s) →
    checkedRegs s i = before ++ (v, n) :: after → Aligned before → v.toNat % n ≠ 0 →
    exec i s = .next (s.raise .align v)) ∧
  (∀ (base stride : Word) (row col esz : Nat), esz = 2 ∨ esz = 4 → base.toNat % esz = 0 → stride.toNat % esz = 0 →
    (elem base stride row col esz).toNat % esz = 0) ∧
  (∀ (base stride : Word) (row col esz : Nat),
    (elem base stride row col esz).toNat = (base.toNat + row * stride.toNat + col * esz) % 2 ^ 32) ∧
  bpp .rgb565 = 2 ∧ bpp .argb8888 = 4 ∧
  ∀ s : State, width s = s.dim.toNat % 65536 ∧ height s = s.dim.toNat / 65536

/-- Zero area: after legal ratios, a rectangle command with WIDTH or HEIGHT 0 completes with RESULT 0, whatever its
registers hold, and changes nothing else (40_control R143). -/
def Obligations.ZeroAreaCompletesWithoutAccess : Prop :=
  ∀ (s : State) (i : Instr), WellFormed i = true → rectOf s i ≠ none → width s = 0 ∨ height s = 0 →
    exec i s = .next { s with busy := false, done := true, result := 0#32 }

/-- The overlap hazard: a command whose accesses are all answered and that reads a byte it writes (other than BLEND's own
read of a destination element) is the model fault HazardOverlap; for BLEND with alpha so is a destination element shared
by two pixels; for DECODE_BLOCK, once the block decodes (70_reset §3 Hazards; that it is checked over the accesses
performed is the model's reading, log 9).
An overlap is a byte that an access which is no write and an access which is a write both touch, but for BLEND's own read
and the write of the same pixel step; writes may overlap writes, and reads reads.
The side-effect hazard: an access to memory with side effects, where the accesses before it are answered and do not
overlap, is the model fault HazardSideEffect: an access of a rectangle command or IDCT, a coefficient write of DECODE_BLOCK,
any byte a segment load comes to read, and an entropy byte of the bit reader, at which the block's decoding stops
(20_memory §3 Ordering; 70_reset §3 Hazards; that the model tells such memory by its region, and checks the overlap
first, is its choice, log 12). -/
def Obligations.ReadingAByteItWritesFaults : Prop :=
  (∀ (s : State) (i : Instr), (∀ c d a, i ≠ .decodeBlock c d a) →
    BuffersOk s ((footprint i s).reads ++ (footprint i s).writes) →
    (∃ r ∈ (footprint i s).reads, r.kind = .read ∧ ∃ w ∈ (footprint i s).writes, r.meets w = true) →
    exec i s = .fault .hazardOverlap) ∧
  (∀ (s : State) (df : PixelFormat) (row col row' col' : Nat), HasArea s →
    Aligned (checkedRegs s (.blend .argb8888 df)) → BuffersOk s (rectPlan (blendPixels s .argb8888 df)) →
    row < height s → col < width s → row' < height s → col' < width s → (row, col) ≠ (row', col') →
    elem s.dstAddr s.dstStride row col (bpp df) = elem s.dstAddr s.dstStride row' col' (bpp df) →
    exec (.blend .argb8888 df) s = .fault .hazardOverlap) ∧
  (∀ (s : State) (comp : BitVec 2) (d a : Bool) (c : Fin 3) (b : Block) (r : Reader), index3 comp = some c →
    TablesValid s (.decodeBlock comp d a) → s.dstAddr.toNat % 2 = 0 →
    decodeCoeffs s c (dcSlot d) (acSlot a) = .got b r → BuffersOk s (decodePlan s) →
    (∃ x ∈ r.seen, ∃ w ∈ decodePlan s, x.meets w = true) →
    exec (.decodeBlock comp d a) s = .fault .hazardOverlap) ∧
  (∀ (s : State) (i : Instr) (plan before after : List Access) (x : Access),
    WellFormed i = true → TablesValid s i → planOf s i = some plan → (rectOf s i ≠ none → HasArea s) →
    Aligned (checkedRegs s i) → plan = before ++ x :: after → BuffersOk s before →
    respond s.cfg x.addr x.size = .sideEffects → overlapping before = false →
    exec i s = .fault .hazardSideEffect) ∧
  (∀ (s : State) (comp : BitVec 2) (d a : Bool) (c : Fin 3), index3 comp = some c →
    TablesValid s (.decodeBlock comp d a) → s.dstAddr.toNat % 2 = 0 →
    (∀ (b : Block) (r : Reader) (before after : List Access) (x : Access),
      decodeCoeffs s c (dcSlot d) (acSlot a) = .got b r → decodePlan s = before ++ x :: after → BuffersOk s before →
      respond s.cfg x.addr x.size = .sideEffects → overlapping (r.seen ++ before) = false →
      exec (.decodeBlock comp d a) s = .fault .hazardSideEffect) ∧
    ∀ (addr : Word) (seen : List Access), decodeCoeffs s c (dcSlot d) (acSlot a) = .stop (.sideEffect addr) seen →
      exec (.decodeBlock comp d a) s = .fault .hazardSideEffect) ∧
  (∀ (s : State) (r : Reader), r.addr.toNat < s.bsEnd.toNat →
    (respond s.cfg r.addr 1 = .sideEffects → fetchByte s r = .stop (.sideEffect r.addr) r.seen) ∧
    (ByteIs s r.addr 0xFF#8 → r.addr.toNat + 1 < s.bsEnd.toNat → respond s.cfg (r.addr + 1#32) 1 = .sideEffects →
      fetchByte s r = .stop (.sideEffect (r.addr + 1#32)) (r.seen ++ byteReads r.addr 1))) ∧
  (∀ (s : State) (i : Instr) (a : Word), LoadReaches s i a → respond s.cfg a 1 = .sideEffects →
    exec i s = .fault .hazardSideEffect) ∧
  (∀ x y : Access, x.meets y = true ↔ ∃ b : Word, (b - x.addr).toNat < x.size ∧ (b - y.addr).toNat < y.size) ∧
  ∀ xs : List Access, overlapping xs = true ↔ ∃ r ∈ xs, ∃ w ∈ xs, r.kind ≠ .write ∧ w.kind = .write ∧
    (∃ b : Word, (b - r.addr).toNat < r.size ∧ (b - w.addr).toNat < w.size) ∧ ¬(r.kind = .modify ∧ r.step = w.step)

/-- BUS at the first access that fails, with its address. A rectangle command or IDCT, and DECODE_BLOCK at a coefficient
write, whose accesses up to the failing one are answered and do not overlap: bytes outside the write set, the parameters,
the tables and, but for DECODE_BLOCK's own predictor and bit reader, the entropy state are unchanged. LOAD_DQT and
LOAD_DHT at the length field or at an id byte: only the tables before it are committed (60_exceptions §1 Raising an error;
41_tables §1 and §2). The model's reading: an overlap with accesses not yet reached is no hazard (log 9).
An access fails exactly when one of its bytes lies in the engine's own register window, whatever the memory map says, or
no region of the map answers it (20_memory §1 and 60_exceptions §1). The model's choices: the platform's predicate is a
list of regions with the access sizes each answers, and an access partly in the window counts as inside it (log 4); the
first region that answers says whether the memory has side effects (log 12). The accesses of each command are those of its
pseudocode, in that order (20_memory §3 Ordering). -/
def Obligations.FirstFailingAccessRaisesBus : Prop :=
  (∀ (s : State) (i : Instr) (plan before after : List Access) (x : Access),
    WellFormed i = true → TablesValid s i → planOf s i = some plan → (rectOf s i ≠ none → HasArea s) →
    Aligned (checkedRegs s i) → plan = before ++ x :: after → BuffersOk s before →
    respond s.cfg x.addr x.size = .busError → overlapping before = false →
    ∃ t, exec i s = .next t ∧ t.busy = false ∧ t.err = true ∧ t.errcode = 3#4 ∧ t.errAddr = x.addr ∧
      t.done = s.done ∧ t.result = s.result ∧ SameParameters s t ∧ SameEntropy s t ∧ SameQuant s t ∧ SameHuff s t ∧
      SameMemoryOutside (writeSet i s) s t) ∧
  (∀ (s : State) (comp : BitVec 2) (d a : Bool) (c : Fin 3) (b : Block) (r : Reader) (before after : List Access)
      (x : Access), index3 comp = some c → TablesValid s (.decodeBlock comp d a) → s.dstAddr.toNat % 2 = 0 →
    decodeCoeffs s c (dcSlot d) (acSlot a) = .got b r → decodePlan s = before ++ x :: after → BuffersOk s before →
    respond s.cfg x.addr x.size = .busError → overlapping (r.seen ++ before) = false →
    ∃ t, exec (.decodeBlock comp d a) s = .next t ∧ t.busy = false ∧ t.err = true ∧ t.errcode = 3#4 ∧
      t.errAddr = x.addr ∧ t.done = s.done ∧ t.result = s.result ∧ SameParameters s t ∧ SameQuant s t ∧ SameHuff s t ∧
      (∀ c' : Fin 3, c' ≠ c → t.pred.get c' = s.pred.get c') ∧ t.bitcnt ≤ 8 ∧
      SameMemoryOutside (writeSet (.decodeBlock comp d a) s) s t) ∧
  (∀ (s : State) (i : Instr), i = .loadDqt ∨ i = .loadDht →
    (respond s.cfg s.srcAddr 1 = .busError → exec i s = .next (s.raise .bus s.srcAddr)) ∧
    (respond s.cfg s.srcAddr 1 = .normal → respond s.cfg (s.srcAddr + 1#32) 1 = .busError →
      exec i s = .next (s.raise .bus (s.srcAddr + 1#32)))) ∧
  (∀ (s : State) (len : Nat) (ts : List (Fin 3 × QuantTable)), SegmentLength s len → 67 + 65 * ts.length ≤ len →
    QuantSegment s (s.srcAddr + 2#32) ts →
    let p := s.srcAddr + BitVec.ofNat 32 (2 + 65 * ts.length)
    respond s.cfg p 1 = .busError → exec .loadDqt s = .next ((commitQuant s ts).raise .bus p)) ∧
  (∀ (s : State) (len : Nat) (es : List HuffEntry), SegmentLength s len → 19 + huffSize es ≤ len →
    HuffSegment s (s.srcAddr + 2#32) es →
    let p := s.srcAddr + BitVec.ofNat 32 (2 + huffSize es)
    respond s.cfg p 1 = .busError → exec .loadDht s = .next ((commitHuff s es).raise .bus p)) ∧
  (∀ (c : Config) (a : Word) (n : Nat),
    let inside := ∃ b ∈ bytesFrom a n, (b - c.engineBase).toNat < 0x1000
    let answers := fun (r : Region) => r.base ≤ a.toNat ∧ a.toNat + n ≤ r.base + r.size ∧ n ∈ r.accessSizes
    (respond c a n = .busError ↔ inside ∨ ∀ r ∈ c.memMap, ¬answers r) ∧
    ∀ (before after : List Region) (r : Region), c.memMap = before ++ r :: after → ¬inside → answers r →
      (∀ r' ∈ before, ¬answers r') → respond c a n = if r.sideEffects then .sideEffects else .normal) ∧
  ∀ s : State, (∀ i plan, planOf s i = some plan → plan = accessSequence s i) ∧
    ∀ comp d a, decodePlan s = accessSequence s (.decodeBlock comp d a)

/-! ### Control commands -/

/-- NOP completes with RESULT 0 and changes nothing else; its only legal word is 0x00000000, and after it STATUS reads
DONE alone (40_control R145). -/
def Obligations.NopOnlyCompletes : Prop :=
  (∀ s : State, exec .nop s = .next { s with busy := false, done := true, result := 0#32 }) ∧
  encode .nop = 0x00000000#32 ∧
  (∀ s : State, s.cmd.extractLsb' 0 8 = 0x00#8 → s.cmd ≠ 0#32 → execute s = .next (s.raise .illegal 0#32)) ∧
  ∀ s : State, s.werr = false → ∃ t, step (s.withFetchWord 32 0x00000000) = .next t ∧
    readOffset t 0x00C = 0x00000002#32 ∧ readOffset t 0x014 = 0#32

/-- RESET_DC clears the three predictors, completes with RESULT 0 and changes nothing else, the bit reader included; its
only legal word is 0x00000001, and DC_PRED0..2 then read 0 (40_control R146). -/
def Obligations.ResetDcClearsThePredictors : Prop :=
  (∀ s : State, ∃ p : Vector Half 3, (∀ c : Fin 3, p.get c = 0#16) ∧
    exec .resetDc s = .next { s with pred := p, busy := false, done := true, result := 0#32 } ∧
    ∀ off ∈ [0x050, 0x054, 0x058], readOffset { s with pred := p } off = 0#32) ∧
  encode .resetDc = 0x00000001#32 ∧
  ∀ s : State, s.cmd.extractLsb' 0 8 = 0x01#8 → s.cmd ≠ 1#32 → execute s = .next (s.raise .illegal 0#32)

/-- RESTART raises TRUNC with BS_ADDR, and changes nothing else, where fewer than 2 bytes remain; otherwise it moves
BS_ADDR past the marker without wrapping, clears BITBUF, BITCNT and the predictors, and completes with RESULT 0
(42_entropy R197, R198). -/
def Obligations.RestartSkipsTheMarkerOrRaisesTrunc : Prop :=
  ∀ s : State,
    (s.bsEnd.toNat < s.bsAddr.toNat + 2 → exec .restart s = .next (s.raise .trunc s.bsAddr)) ∧
    (s.bsAddr.toNat + 2 ≤ s.bsEnd.toNat → ∃ p : Vector Half 3, (∀ c : Fin 3, p.get c = 0#16) ∧
      exec .restart s = .next { s with
        bsAddr := BitVec.ofNat 32 (s.bsAddr.toNat + 2), bitbuf := 0#8, bitcnt := 0, pred := p, busy := false,
        done := true, result := 0#32 } ∧
      s.bsAddr.toNat + 2 < 2 ^ 32) ∧
    encode .restart = 0x00000002#32

/-! ### Table loading -/

/-- LOAD_DQT over a segment of any positive number of whole legal tables commits each in order, a later one for the same
slot replacing the earlier, and completes with RESULT the number of tables; nothing else changes (41_tables §1
Quantisation tables). -/
def Obligations.LoadDqtCommitsEveryTable : Prop :=
  ∀ (s : State) (ts : List (Fin 3 × QuantTable)), ts ≠ [] → SegmentLength s (2 + 65 * ts.length) →
    QuantSegment s (s.srcAddr + 2#32) ts →
    exec .loadDqt s = .next ((commitQuant s ts).complete (BitVec.ofNat 32 ts.length))

/-- LOAD_DQT's data errors: a length below 67 raises SEG_LENGTH at the length field; after whole legal tables, a rest of 1
to 64 bytes raises SEG_LENGTH and an id byte with Pq ≠ 0 or Tq > 2 raises TABLE_SPEC, both at the id byte's address,
with the earlier tables committed and nothing else changed (41_tables §1 Quantisation tables). -/
def Obligations.LoadDqtSegmentErrors : Prop :=
  ∀ (s : State) (len : Nat), SegmentLength s len →
    (len < 67 → exec .loadDqt s = .next (s.raise .segLength s.srcAddr)) ∧
    ∀ (ts : List (Fin 3 × QuantTable)) (b : Byte), 67 ≤ len → QuantSegment s (s.srcAddr + 2#32) ts →
      let p := s.srcAddr + BitVec.ofNat 32 (2 + 65 * ts.length)
      (2 + 65 * ts.length < len → len < 67 + 65 * ts.length →
        exec .loadDqt s = .next ((commitQuant s ts).raise .segLength p)) ∧
      (67 + 65 * ts.length ≤ len → ByteIs s p b → 2 < b.toNat →
        exec .loadDqt s = .next ((commitQuant s ts).raise .tableSpec p))

/-- Commit per table: if LOAD_DQT raises while it reads a table's entries, that table's slot is invalid, the tables before
it stay loaded and valid, and every other slot keeps its contents and valid bit (41_tables R161). -/
def Obligations.FailedDqtLoadInvalidatesOnlyItsSlot : Prop :=
  ∀ (s : State) (len : Nat) (ts : List (Fin 3 × QuantTable)) (q : Fin 3) (got : List Byte),
    SegmentLength s len → 67 + 65 * ts.length ≤ len → QuantSegment s (s.srcAddr + 2#32) ts →
    let p := s.srcAddr + BitVec.ofNat 32 (2 + 65 * ts.length)
    let bad := p + 1#32 + BitVec.ofNat 32 got.length
    ByteIs s p (BitVec.ofNat 8 q.val) → got.length < 64 → BytesAre s (p + 1#32) got →
    respond s.cfg bad 1 = .busError →
    ∃ t, exec .loadDqt s = .next t ∧ t.err = true ∧ t.errcode = 3#4 ∧ t.errAddr = bad ∧ t.mem = s.mem ∧
      t.qv.get q = false ∧ SameParameters s t ∧ SameEntropy s t ∧ SameHuff s t ∧
      ∀ q' : Fin 3, q' ≠ q →
        t.qv.get q' = (commitQuant s ts).qv.get q' ∧ t.qt.get q' = (commitQuant s ts).qt.get q'

/-- LOAD_DHT over a segment of any positive number of whole legal tables builds and commits each in order and completes
with RESULT the number of tables; nothing else changes (41_tables §2 Huffman tables). -/
def Obligations.LoadDhtCommitsEveryTable : Prop :=
  ∀ (s : State) (es : List HuffEntry), es ≠ [] → SegmentLength s (2 + huffSize es) →
    HuffSegment s (s.srcAddr + 2#32) es →
    exec .loadDht s = .next ((commitHuff s es).complete (BitVec.ofNat 32 es.length))

/-- LOAD_DHT's errors before a slot is touched: a length below 19 raises SEG_LENGTH at the length field; after whole legal
tables, a rest of 1 to 16 bytes raises SEG_LENGTH and an id byte with Tc > 1 or Th > 1 raises TABLE_SPEC, both at the
id byte's address, with the earlier tables committed and nothing else changed (41_tables §2 Huffman tables). -/
def Obligations.LoadDhtSegmentErrors : Prop :=
  ∀ (s : State) (len : Nat), SegmentLength s len →
    (len < 19 → exec .loadDht s = .next (s.raise .segLength s.srcAddr)) ∧
    ∀ (es : List HuffEntry) (b : Byte), 19 ≤ len → HuffSegment s (s.srcAddr + 2#32) es →
      let p := s.srcAddr + BitVec.ofNat 32 (2 + huffSize es)
      (2 + huffSize es < len → len < 19 + huffSize es →
        exec .loadDht s = .next ((commitHuff s es).raise .segLength p)) ∧
      (19 + huffSize es ≤ len → ByteIs s p b → 1 < b.toNat / 16 ∨ 1 < b.toNat % 16 →
        exec .loadDht s = .next ((commitHuff s es).raise .tableSpec p))

/-- Commit per table for Huffman slots: a failing read of one of the 16 counts raises BUS, counts of more than 256 symbols
or over-subscribed raise HUFF_TABLE, too few bytes left for the symbols raise SEG_LENGTH, and a failing read of a symbol
raises BUS; in each case the slot being loaded is invalid, the tables before it stay valid and every other slot is
unchanged (41_tables §2 Huffman tables). -/
def Obligations.FailedDhtLoadInvalidatesOnlyItsSlot : Prop :=
  ∀ (s : State) (len : Nat) (es : List HuffEntry) (h : Fin 4) (counts got : List Byte),
    SegmentLength s len → 19 + huffSize es ≤ len → HuffSegment s (s.srcAddr + 2#32) es →
    let p := s.srcAddr + BitVec.ofNat 32 (2 + huffSize es)
    let badCount := p + 1#32 + BitVec.ofNat 32 counts.length
    let bad := p + 17#32 + BitVec.ofNat 32 got.length
    let failed := fun (code : BitVec 4) (addr : Word) =>
      ∃ t, exec .loadDht s = .next t ∧ t.err = true ∧ t.errcode = code ∧ t.errAddr = addr ∧ t.mem = s.mem ∧
        t.hv.get h = false ∧ SameParameters s t ∧ SameEntropy s t ∧ SameQuant s t ∧
        ∀ h' : Fin 4, h' ≠ h →
          t.hv.get h' = (commitHuff s es).hv.get h' ∧ t.ht.get h' = (commitHuff s es).ht.get h'
    ByteIs s p (huffId h) → BytesAre s (p + 1#32) counts →
    (counts.length < 16 → respond s.cfg badCount 1 = .busError → failed 3#4 badCount) ∧
    let overfull := 256 < totalOf counts ∨ (build counts).2 = false
    (counts.length = 16 →
      (overfull → failed 6#4 p) ∧
      (¬overfull → len < 19 + huffSize es + totalOf counts → failed 4#4 p) ∧
      (¬overfull → 19 + huffSize es + totalOf counts ≤ len → got.length < totalOf counts →
        BytesAre s (p + 17#32) got → respond s.cfg bad 1 = .busError → failed 3#4 bad))

/-- Build, for every 16 counts: mincode[1] = 0 and mincode doubles from length to length; valptr is the number of symbols of
the shorter lengths; maxcode is the last code of its length, or -1 where there is none; and the code is accepted exactly when
no length has a code of 2^l or more, so a complete code is (41_tables R167). A code accepted, of at most 256 symbols, has for
each length with codes 0 ≤ mincode ≤ maxcode < 2^l, as many codes as counted, and its symbols inside the table (R169). -/
def Obligations.BuiltRowsFormACanonicalCode : Prop :=
  ∀ counts : List Byte, counts.length = 16 →
    totalOf counts = (counts.map BitVec.toNat).sum ∧
    ∃ row : Nat → CodeRow, (build counts).1 = (List.range 16).map row ∧ (row 0).mincode = 0 ∧
      (∀ l < 16, (row l).count = counts.getD l 0#8 ∧ (row l).valptr = ((counts.take l).map BitVec.toNat).sum ∧
        (row l).maxcode = if (row l).count = 0#8 then -1 else ((row l).mincode : Int) + (row l).count.toNat - 1) ∧
      (∀ l, 0 < l → l < 16 → (row l).mincode = 2 * ((row (l - 1)).mincode + (row (l - 1)).count.toNat)) ∧
      ((build counts).2 = true ↔ ∀ l < 16, (row l).mincode + (row l).count.toNat ≤ 2 ^ (l + 1)) ∧
      ((build counts).2 = true → totalOf counts ≤ 256 → ∀ l < 16, 0 < (row l).count.toNat →
        ((row l).mincode : Int) ≤ (row l).maxcode ∧ (row l).maxcode < 2 ^ (l + 1) ∧
        (row l).maxcode - (row l).mincode + 1 = (row l).count.toNat ∧
        (row l).valptr + (row l).count.toNat ≤ totalOf counts ∧ totalOf counts ≤ 256)

/-- A segment load depends on no byte of memory outside the declared segment (its length field included), and it leaves
memory unchanged (41_tables §1 and §2). -/
def Obligations.SegmentLoadsDependOnlyOnTheirSegment : Prop :=
  ∀ (s : State) (m : Memory) (len : Nat) (i : Instr), i = .loadDqt ∨ i = .loadDht → SegmentLength s len →
    (∀ k < max len 2, Memory.readByte m (s.srcAddr + BitVec.ofNat 32 k).toNat =
      Memory.readByte s.mem (s.srcAddr + BitVec.ofNat 32 k).toNat) →
    ∀ t, exec i s = .next t → t.mem = s.mem ∧ exec i { s with mem := m } = .next { t with mem := m }

/-! ### Entropy decoding -/

/-- Extend: 0 for size 0; a value with top bit 0 is negative, in one's complement; the result lies in the two ranges of
its size; the spec's examples (42_entropy R194). -/
def Obligations.ExtendGivesTheSignedCoefficient : Prop :=
  (∀ v, extend v 0 = 0) ∧
  (∀ n v, 1 ≤ n → v < 2 ^ (n - 1) → extend v n = (v : Int) - 2 ^ n + 1) ∧
  (∀ n v, 1 ≤ n → 2 ^ (n - 1) ≤ v → extend v n = v) ∧
  (∀ n v, 1 ≤ n → v < 2 ^ n →
    (-(2 ^ n - 1 : Int) ≤ extend v n ∧ extend v n ≤ -2 ^ (n - 1)) ∨
    ((2 ^ (n - 1) : Int) ≤ extend v n ∧ extend v n ≤ 2 ^ n - 1)) ∧
  extend 0 1 = -1 ∧ extend 1 1 = 1 ∧ extend 3 3 = -4 ∧ extend 4 3 = 4 ∧ extend 0 11 = -2047

/-- FetchByte: TRUNC at the end bound; a plain byte advances BS_ADDR by 1; 0xFF 0x00 is one byte 0xFF and advances it by
2; 0xFF before another byte is MARKER at the 0xFF; 0xFF as the last byte is TRUNC there; a failing read is BUS. The buffer
and its count are not touched (42_entropy R191). The model's record of its reads (R204) gains each
byte read: the one at BS_ADDR, and the one after it where the first is 0xFF and the end bound allows it. -/
def Obligations.FetchByteRemovesStuffing : Prop :=
  ∀ (s : State) (r : Reader) (b b2 : Byte),
    let a := r.addr
    let stops := fun (code : ErrCode) (addr : Word) (n : Nat) =>
      fetchByte s r = .stop (.error code addr) (r.seen ++ byteReads a n)
    let gives := fun (x : Byte) (n : Nat) =>
      fetchByte s r = .got x ⟨a + BitVec.ofNat 32 n, r.buf, r.cnt, r.seen ++ byteReads a n⟩
    (s.bsEnd.toNat ≤ a.toNat → stops .trunc a 0) ∧
    (a.toNat < s.bsEnd.toNat →
      (respond s.cfg a 1 = .busError → stops .bus a 0) ∧
      (ByteIs s a b → b ≠ 0xFF#8 → gives b 1) ∧
      (ByteIs s a 0xFF#8 → s.bsEnd.toNat ≤ a.toNat + 1 → stops .trunc a 1) ∧
      (ByteIs s a 0xFF#8 → a.toNat + 1 < s.bsEnd.toNat →
        (respond s.cfg (a + 1#32) 1 = .busError → stops .bus (a + 1#32) 1) ∧
        (ByteIs s (a + 1#32) 0x00#8 → gives 0xFF#8 2) ∧
        (ByteIs s (a + 1#32) b2 → b2 ≠ 0x00#8 → stops .marker a 2)))

/-- Receive(n) from a buffer that holds at least n bits takes them most significant first, as one number, and reads no
byte; NextBit there gives the top one. NextBit at BITCNT 0 takes the next byte from FetchByte into the buffer and gives its top bit, leaving 7, and stops
where FetchByte stops. Receive across a byte boundary joins the bits left over and the top bits of the next byte;
Receive(n + m) is Receive(n) and then Receive(m), over any number of bytes (42_entropy §1 Bit reader). -/
def Obligations.ReceiveTakesBufferedBitsMsbFirst : Prop :=
  (∀ (s : State) (r : Reader) (n : Nat), n ≤ r.cnt → r.cnt ≤ 8 →
    receive s n r = .got (r.buf.toNat / 2 ^ (r.cnt - n) % 2 ^ n) { r with cnt := r.cnt - n }) ∧
  (∀ (s : State) (r : Reader), 0 < r.cnt → r.cnt ≤ 8 →
    nextBit s r = .got (r.buf.getLsbD (r.cnt - 1)) { r with cnt := r.cnt - 1 }) ∧
  (∀ (s : State) (r : Reader), r.cnt = 0 →
    (∀ b r1, fetchByte s r = .got b r1 → nextBit s r = .got (b.getLsbD 7) { r1 with buf := b, cnt := 7 }) ∧
    ∀ e seen, fetchByte s r = .stop e seen → nextBit s r = .stop e seen) ∧
  (∀ (s : State) (r r1 : Reader) (b : Byte) (n : Nat), r.cnt ≤ 8 → r.cnt < n → n ≤ r.cnt + 8 →
    fetchByte s { r with cnt := 0 } = .got b r1 →
    let m := n - r.cnt
    receive s n r = .got (r.buf.toNat % 2 ^ r.cnt * 2 ^ m + b.toNat / 2 ^ (8 - m)) { r1 with buf := b, cnt := 8 - m }) ∧
  ∀ (s : State) (r : Reader) (n m : Nat),
    receive s (n + m) r =
      (receive s n r).bind fun v r => (receive s m r).bind fun w r => .got (v * 2 ^ m + w) r

/-- The index lemma: where HuffDecode returns on a well-built slot, it has taken the bits of a code of some length, that
code lies within the length's codes, and the symbol is a stored one at that index (42_entropy R196). -/
def Obligations.HuffmanSymbolIsAStoredOne : Prop :=
  ∀ (s : State) (slot : Fin 4) (r r' : Reader) (sym : Byte), Built (s.ht.get slot) →
    huffDecode s slot r = .got sym r' →
    ∃ (l : Fin 16) (code : Nat),
      let row := (s.ht.get slot).rows.get l
      let index := row.valptr + code - row.mincode
      receive s (l.val + 1) r = .got code r' ∧ row.mincode ≤ code ∧ code - row.mincode < row.count.toNat ∧
      index < (s.ht.get slot).values.length ∧ (s.ht.get slot).values[index]? = some sym

/-- Every canonical code decodes: if the next l bits are a code between mincode[l] and maxcode[l] of a well-built slot,
HuffDecode takes exactly those bits and returns the symbol of that code. In any slot, 16 bits that match no length raise
HUFF_CODE with the BS_ADDR after the last bit, and where the bit reader stops before any length has matched HuffDecode
stops as it does (41_tables §2, 42_entropy §2 Huffman decode). -/
def Obligations.CanonicalCodeDecodesToItsSymbol : Prop :=
  (∀ (s : State) (slot : Fin 4) (r r' : Reader) (l : Fin 16) (code : Nat), Built (s.ht.get slot) →
    receive s (l.val + 1) r = .got code r' →
    let row := (s.ht.get slot).rows.get l
    row.mincode ≤ code → (code : Int) ≤ row.maxcode →
    huffDecode s slot r = .got ((s.ht.get slot).values.getD (row.valptr + code - row.mincode) 0#8) r') ∧
  ∀ (s : State) (slot : Fin 4) (r r' : Reader) (n code : Nat), receive s n r = .got code r' →
    NoMatch (s.ht.get slot) n code →
    (n = 16 → huffDecode s slot r = .stop (.error .huffCode r'.addr) r'.seen) ∧
    ∀ e seen, n < 16 → nextBit s r' = .stop e seen → huffDecode s slot r = .stop e seen

/-- DECODE_BLOCK, any block: where the block decodes, its writes are answered and no entropy byte it reads is among them,
it completes with RESULT k from 1 to 64, PRED[COMP] the new predictor, the bit reader moved, and the 64 coefficients in
zig-zag order at DST_ADDR, those from k on 0; nothing else changes.
How a block decodes: a DC category above 11 is COEF, and a stop of the bit reader or of HuffDecode before the DC coefficient
is complete stops the block. After it, each legal AC symbol of run r and size sz places
Extend(v, sz) at k + r and moves k to k + r + 1 (ZRL, 0xF0, places 0 at k + 15 and moves k by 16); symbol 0x00 or k = 64
ends the block, with 0 at every position no symbol placed; a size above 10, a size 0 with a run other than 15, or a run
past position 63 is COEF with the BS_ADDR reached; a stop of the bit reader stops the block (42_entropy §3 Commands). The
reader starts at BS_ADDR with the buffered bits, and the bytes a decoded block has read are exactly those from the initial
BS_ADDR up to but not including the final one; those read before a stop follow one another from the initial BS_ADDR too. -/
def Obligations.DecodeBlockWritesItsCoefficients : Prop :=
  (∀ (s : State) (comp : BitVec 2) (d a : Bool) (c : Fin 3) (b : Block) (r : Reader), index3 comp = some c →
    Memory.wf s.mem = true → TablesValid s (.decodeBlock comp d a) → s.dstAddr.toNat % 2 = 0 →
    decodeCoeffs s c (dcSlot d) (acSlot a) = .got b r → BuffersOk s (decodePlan s) →
    FootprintsDisjoint (r.seen ++ decodePlan s) →
    ∃ m, exec (.decodeBlock comp d a) s = .next { s with
        mem := m, pred := s.pred.set c b.pred, bsAddr := r.addr, bitbuf := r.buf, bitcnt := r.cnt, busy := false,
        done := true, result := BitVec.ofNat 32 b.k } ∧
      1 ≤ b.k ∧ b.k ≤ 64 ∧ b.z[0] = b.pred ∧
      (∀ i : Fin 64, b.k ≤ i.val → b.z.get i = 0#16) ∧
      (∀ i : Fin 64, Memory.load m 2 (s.dstAddr + BitVec.ofNat 32 (2 * i.val)) = (b.z.get i).toNat) ∧
      ∀ x : Word, 128 ≤ (x - s.dstAddr).toNat → Memory.readByte m x.toNat = Memory.readByte s.mem x.toNat) ∧
  (∀ (s : State) (c : Fin 3) (dc ac : Fin 4),
    (∀ e seen, huffDecode s dc (startReader s) = .stop e seen → decodeCoeffs s c dc ac = .stop e seen) ∧
    ∀ t r1, huffDecode s dc (startReader s) = .got t r1 →
      (11 < t.toNat → decodeCoeffs s c dc ac = .stop (.error .coef r1.addr) r1.seen) ∧
      ∀ e seen, t.toNat ≤ 11 → receive s t.toNat r1 = .stop e seen → decodeCoeffs s c dc ac = .stop e seen) ∧
  (∀ (s : State) (c : Fin 3) (dc ac : Fin 4), startReader s = ⟨s.bsAddr, s.bitbuf, s.bitcnt, []⟩ ∧
    (∀ b r, decodeCoeffs s c dc ac = .got b r → s.bsAddr.toNat ≤ r.addr.toNat ∧
      r.seen = byteReads s.bsAddr (r.addr.toNat - s.bsAddr.toNat)) ∧
    ∀ e seen, decodeCoeffs s c dc ac = .stop e seen → seen = byteReads s.bsAddr seen.length) ∧
  ∀ (s : State) (c : Fin 3) (dc ac : Fin 4) (t : Byte) (v : Nat) (r1 r2 r3 : Reader) (items : List (Byte × Nat)) (k : Nat),
    huffDecode s dc (startReader s) = .got t r1 → t.toNat ≤ 11 → receive s t.toNat r1 = .got v r2 →
    AcSymbols s ac 1 r2 items k r3 →
    let p : Half := BitVec.ofInt 16 ((s.pred.get c).toInt + extend v t.toNat)
    (∀ r4, (k = 64 ∧ r4 = r3) ∨ (k < 64 ∧ huffDecode s ac r3 = .got 0x00#8 r4) →
      ∃ b, decodeCoeffs s c dc ac = .got b r4 ∧ b.pred = p ∧ b.k = k ∧ b.z.get 0 = p ∧
        (∀ x ∈ acPlaces 1 items, ∀ i : Fin 64, i.val = x.1 → b.z.get i = BitVec.ofInt 16 x.2) ∧
        ∀ i : Fin 64, i ≠ 0 → i.val ∉ (acPlaces 1 items).map Prod.fst → b.z.get i = 0#16) ∧
    (k < 64 →
      (∀ rs r4, huffDecode s ac r3 = .got rs r4 → rs ≠ 0x00#8 → ¬AcLegal k rs →
        decodeCoeffs s c dc ac = .stop (.error .coef r4.addr) r4.seen) ∧
      (∀ e seen, huffDecode s ac r3 = .stop e seen → decodeCoeffs s c dc ac = .stop e seen) ∧
      ∀ rs r4 e seen, huffDecode s ac r3 = .got rs r4 → AcLegal k rs → receive s (acSize rs) r4 = .stop e seen →
        decodeCoeffs s c dc ac = .stop e seen)

/-- DECODE_BLOCK on a block that ends after its DC coefficient: category t at most 11, t value bits, then the symbol 0x00:
PRED[COMP] wraps modulo 2^16 at PRED[COMP] + Extend(v, t), the block is that value and 63 zeros, RESULT is 1 (42_entropy
§3 Commands). -/
def Obligations.DecodeBlockOfADcOnlyBlock : Prop :=
  ∀ (s : State) (comp : BitVec 2) (d a : Bool) (c : Fin 3) (t : Byte) (v : Nat) (r1 r2 r3 : Reader),
    index3 comp = some c → Memory.wf s.mem = true → TablesValid s (.decodeBlock comp d a) → s.dstAddr.toNat % 2 = 0 →
    huffDecode s (dcSlot d) (startReader s) = .got t r1 → t.toNat ≤ 11 → receive s t.toNat r1 = .got v r2 →
    huffDecode s (acSlot a) r2 = .got 0x00#8 r3 → BuffersOk s (decodePlan s) →
    FootprintsDisjoint (r3.seen ++ decodePlan s) →
    ∃ (m : Memory) (p : Half), p = BitVec.ofInt 16 ((s.pred.get c).toInt + extend v t.toNat) ∧
      exec (.decodeBlock comp d a) s = .next { s with
        mem := m, pred := s.pred.set c p, bsAddr := r3.addr, bitbuf := r3.buf, bitcnt := r3.cnt, busy := false,
        done := true, result := 1#32 } ∧
      Memory.load m 2 s.dstAddr = p.toNat ∧
      ∀ i, 1 ≤ i → i < 64 → Memory.load m 2 (s.dstAddr + BitVec.ofNat 32 (2 * i)) = 0

/-- After a DECODE_BLOCK body error in decoding: the error's code and address; the other predictors, the tables and the
parameters are unchanged, BITCNT is at most 8, and memory outside the 128 bytes at DST_ADDR is unchanged. PRED[COMP], the
bit reader and the write set are free values, of which nothing more is said (60_exceptions §1 Raising an error). The
model's reading: the error is reported also where entropy bytes lie among the 128 destination bytes, since none of those
has been written (log 9). -/
def Obligations.DecodeBlockErrorState : Prop :=
  ∀ (s : State) (comp : BitVec 2) (d a : Bool) (c : Fin 3) (code : ErrCode) (addr : Word) (seen : List Access),
    index3 comp = some c → TablesValid s (.decodeBlock comp d a) → s.dstAddr.toNat % 2 = 0 →
    decodeCoeffs s c (dcSlot d) (acSlot a) = .stop (.error code addr) seen →
    ∃ t, exec (.decodeBlock comp d a) s = .next t ∧ t.busy = false ∧ t.err = true ∧ t.errcode = errBits code ∧
      t.errAddr = addr ∧ t.done = s.done ∧ t.result = s.result ∧ SameParameters s t ∧ SameQuant s t ∧ SameHuff s t ∧
      (∀ c' : Fin 3, c' ≠ c → t.pred.get c' = s.pred.get c') ∧ t.bitcnt ≤ 8 ∧
      ∀ x : Word, 128 ≤ (x - s.dstAddr).toNat → Memory.readByte t.mem x.toNat = Memory.readByte s.mem x.toNat

/-! ### The inverse transform -/

/-- IDCT completes with RESULT 0 and writes, at each output element no later write overlaps, the low 16 bits of the
clipped transform of its prepared input plus 128 with LSHIFT; nothing else changes. Coefficient i of the input is the signed
16-bit element at SRC_ADDR + 2i. RAW needs no valid table (43_idct §1
The command; §4 Output stage). -/
def Obligations.IdctWritesItsSamples : Prop :=
  ∀ (s : State) (qsel : BitVec 2) (lshift raw : Bool) (q : Fin 3), index3 qsel = some q → Memory.wf s.mem = true →
    TablesValid s (.idct qsel lshift raw) → Aligned (checkedRegs s (.idct qsel lshift raw)) →
    BuffersOk s (idctPlan s) → FootprintsDisjoint (idctPlan s) →
    let z := (List.range 64).map fun i =>
      (BitVec.ofNat 16 (Memory.load s.mem 2 (s.srcAddr + BitVec.ofNat 32 (2 * i)))).toInt
    let f := prepare z (s.qt.get q) raw
    let sample := fun row col =>
      min s.cfg.clipHi (max s.cfg.clipLo (idctCore s.cfg.kernel f row col)) + (if lshift then 128 else 0)
    ∃ m, exec (.idct qsel lshift raw) s = .next { s with mem := m, busy := false, done := true, result := 0#32 } ∧
      (∀ row < 8, ∀ col < 8, LastWriter s 8 8 2 row col →
        Memory.load m 2 (elem s.dstAddr s.dstStride row col 2) = (BitVec.ofInt 16 (sample row col)).toNat) ∧
      ∀ x : Word, (∀ row < 8, ∀ col < 8, x ∉ bytesFrom (elem s.dstAddr s.dstStride row col 2) 2) →
        Memory.readByte m x.toNat = Memory.readByte s.mem x.toNat

/-- The zig-zag table of the spec is a permutation of 0 to 63 with its ends in place, and Prepare scatters the saturated
products through it, or passes a RAW block through (43_idct R232, R233). -/
def Obligations.PrepareScattersThroughTheZigzag : Prop :=
  zigzag =
    [0, 1, 8, 16, 9, 2, 3, 10] ++ [17, 24, 32, 25, 18, 11, 4, 5] ++ [12, 19, 26, 33, 40, 48, 41, 34] ++
    [27, 20, 13, 6, 7, 14, 21, 28] ++ [35, 42, 49, 56, 57, 50, 43, 36] ++ [29, 22, 15, 23, 30, 37, 44, 51] ++
    [58, 59, 52, 45, 38, 31, 39, 46] ++ [53, 60, 61, 54, 47, 55, 62, 63] ∧
  zigzag.Perm (List.range 64) ∧ zigzag.getD 0 64 = 0 ∧ zigzag.getD 63 64 = 63 ∧
  ∀ (z : List Int) (t : QuantTable), z.length = 64 →
    prepare z t true = z ∧ (prepare z t false).length = 64 ∧
    ∀ k : Fin 64, (prepare z t false).getD (zigzag.getD k.val 64) 0 =
      min 32767 (max (-32768) (z.getD k.val 0 * ((t.get k).toNat : Int)))

/-- The row pass and the column pass in closed form, with the constants 2841, 2676, 2408, 1609, 1108, 565 and 181 written
out and every shift a division that rounds down (43_idct R236, R237); the transform is the row pass on each row, then the
column pass on each column of the row results (R235). The shortcuts of the passes are what the butterflies give: a row with
only b[0] gives `b[0] << 3` in all places, a column with only b[0] gives `(b[0] + 32) >> 6` (R241). A block with only
F[0] = D transforms to ⌊(D + 4) / 8⌋ everywhere, and the spec's table of clipped and shifted outputs follows at the
default clip bounds (R242). F[1] = 100 alone and F[8] = -200 alone transform to the spec's T-IDCT-2 and T-IDCT-3. -/
def Obligations.ShortcutsAndDcOnlyBlocks : Prop :=
  (∀ b0 b1 b2 b3 b4 b5 b6 b7 : Int,
    rowPass b0 b1 b2 b3 b4 b5 b6 b7 =
      passResults 256 (2048 * (b0 + b4) + 128) (2048 * (b0 - b4) + 128)
        (2676 * b2 + 1108 * b6) (1108 * b2 - 2676 * b6) (2841 * b1 + 565 * b7) (565 * b1 - 2841 * b7)
        (2408 * b3 + 1609 * b5) (2408 * b5 - 1609 * b3) ∧
    colPass b0 b1 b2 b3 b4 b5 b6 b7 =
      passResults 16384 (256 * (b0 + b4) + 8192) (256 * (b0 - b4) + 8192)
        ((2676 * b2 + 1108 * b6 + 4) / 8) ((1108 * b2 - 2676 * b6 + 4) / 8)
        ((2841 * b1 + 565 * b7 + 4) / 8) ((565 * b1 - 2841 * b7 + 4) / 8)
        ((2408 * b3 + 1609 * b5 + 4) / 8) ((2408 * b5 - 1609 * b3 + 4) / 8)) ∧
  (∀ (f : List Int) (row col : Nat), row < 8 → col < 8 →
    let b := fun v u => f.getD (8 * v + u) 0
    let r := fun v => (rowPass (b v 0) (b v 1) (b v 2) (b v 3) (b v 4) (b v 5) (b v 6) (b v 7)).getD col 0
    idctCore .cw11 f row col = (colPass (r 0) (r 1) (r 2) (r 3) (r 4) (r 5) (r 6) (r 7)).getD row 0) ∧
  (∀ b : Int, rowPass b 0 0 0 0 0 0 0 = List.replicate 8 (b * 8) ∧
    colPass b 0 0 0 0 0 0 0 = List.replicate 8 ((b + 32) / 64)) ∧
  (∀ (D : Int) (row col : Nat), row < 8 → col < 8 →
    idctCore .cw11 (D :: List.replicate 63 0) row col = (D + 4) / 8) ∧
  (∀ e ∈ [((0 : Int), (0 : Int), (128 : Int)), (576, 72, 200), (-1024, -128, 0), (4000, 500, 628), (32767, 511, 639),
      (-32768, -256, -128)],
    ∀ row < 8, ∀ col < 8,
      idctSample Config.initial (idctCore .cw11 (e.1 :: List.replicate 63 0) row col) false = e.2.1 ∧
      idctSample Config.initial (idctCore .cw11 (e.1 :: List.replicate 63 0) row col) true = e.2.2) ∧
  ∀ row < 8, ∀ col < 8,
    idctCore .cw11 ([0, 100] ++ List.replicate 62 0) row col = [17, 15, 10, 3, -3, -10, -15, -17].getD col 0 ∧
    idctCore .cw11 (List.replicate 8 0 ++ (-200) :: List.replicate 55 0) row col =
      [-35, -29, -20, -7, 7, 20, 29, 35].getD row 0

/-- Over every input of 16-bit coefficients each row result has magnitude at most 3 318 541 and each transform output at
most 656 417 (43_idct §3 The transform). -/
def Obligations.TransformOutputsAreBounded : Prop :=
  (∀ b : Fin 8 → Int, (∀ u, -32768 ≤ b u ∧ b u ≤ 32767) →
    ∀ x ∈ rowPass (b 0) (b 1) (b 2) (b 3) (b 4) (b 5) (b 6) (b 7), -3318541 ≤ x ∧ x ≤ 3318541) ∧
  ∀ f : List Int, (∀ x ∈ f, -32768 ≤ x ∧ x ≤ 32767) → ∀ row col : Nat,
    -656417 ≤ idctCore .cw11 f row col ∧ idctCore .cw11 f row col ≤ 656417

/-! ### Colour -/

/-- UPSAMPLE with legal ratios completes and leaves in each destination sample the source sample at (row / VR, col / HR),
bit for bit (44_color §1 Upsampling). -/
def Obligations.UpsampleReplicatesSamples : Prop :=
  ∀ (s : State) (hr vr : BitVec 2), WellFormed (.upsample hr vr) = true →
    RectReady s (.upsample hr vr) (upsamplePixels s hr vr) →
    RectCompletes s (exec (.upsample hr vr) s) 2 fun row col =>
      Memory.load s.mem 2 (elem s.srcAddr s.srcStride (row / vr.toNat) (col / hr.toNat) 2)

/-- YCC2RGB completes and leaves in each destination pixel the packed RGB565 of its Y, Cb and Cr samples, with Cb = Cr = 0
for GRAY (44_color §2 Colour conversion). -/
def Obligations.YccPixelsAreConverted : Prop :=
  ∀ (s : State) (gray : Bool), RectReady s (.ycc2rgb gray) (yccPixels s gray) →
    RectCompletes s (exec (.ycc2rgb gray) s) 2 fun row col =>
      let sample := fun a => (BitVec.ofNat 16 (Memory.load s.mem 2 a)).toInt
      let y := sample (elem s.srcAddr s.srcStride row col 2)
      let cb := if gray then 0 else sample (elem s.auxAddr s.auxStride row col 2)
      let cr := if gray then 0 else sample (elem s.aux2Addr s.auxStride row col 2)
      let k := s.cfg.ycc
      let channel := fun (v : Int) => (min 255 (max 0 ((v + 128) / 256))).toNat
      (pack565 (channel (256 * y + k.crR * cr)) (channel (256 * y - k.cbG * cb - k.crG * cr))
        (channel (256 * y + k.cbB * cb))).toNat

/-- YccToRgb with the default coefficients: gray identity, every channel in 0 to 255, and its monotonicities (44_color
R267). -/
def Obligations.YccToRgbProperties : Prop :=
  let k : YccCoef := ⟨359, 88, 183, 454⟩
  (∀ y : Int, 0 ≤ y → y ≤ 255 → yccRed k y 0 = y ∧ yccGreen k y 0 0 = y ∧ yccBlue k y 0 = y) ∧
  (∀ y cb cr : Int, (0 ≤ yccRed k y cr ∧ yccRed k y cr ≤ 255) ∧ (0 ≤ yccGreen k y cb cr ∧ yccGreen k y cb cr ≤ 255) ∧
    (0 ≤ yccBlue k y cb ∧ yccBlue k y cb ≤ 255)) ∧
  (∀ y y' cb cr : Int, y ≤ y' → yccRed k y cr ≤ yccRed k y' cr ∧ yccGreen k y cb cr ≤ yccGreen k y' cb cr ∧
    yccBlue k y cb ≤ yccBlue k y' cb) ∧
  (∀ y cb cr cr' : Int, cr ≤ cr' → yccRed k y cr ≤ yccRed k y cr' ∧ yccGreen k y cb cr' ≤ yccGreen k y cb cr) ∧
  ∀ y cb cb' cr : Int, cb ≤ cb' → yccBlue k y cb ≤ yccBlue k y cb' ∧ yccGreen k y cb' cr ≤ yccGreen k y cb cr

/-- With GRAY = 1 the chroma registers are neither read nor checked: changing them changes nothing else in the answer
(44_color §2 Colour conversion). -/
def Obligations.GrayIgnoresTheChromaRegisters : Prop :=
  ∀ (s : State) (a1 a2 st : Word),
    let chroma := fun (u : State) => { u with auxAddr := a1, aux2Addr := a2, auxStride := st }
    (∀ t, exec (.ycc2rgb true) s = .next t → exec (.ycc2rgb true) (chroma s) = .next (chroma t)) ∧
    ∀ f, exec (.ycc2rgb true) s = .fault f → exec (.ycc2rgb true) (chroma s) = .fault f

/-! ### Pixel formats -/

/-- CVT565_8888 completes and leaves in each destination pixel the widened source pixel (45_pixel; 20_memory §2). -/
def Obligations.WideningConvertsEveryPixel : Prop :=
  ∀ s : State, RectReady s .cvt565To8888 (widenPixels s) →
    RectCompletes s (exec .cvt565To8888 s) 4 fun row col =>
      (to8888 s.cfg.expand (BitVec.ofNat 16 (Memory.load s.mem 2 (elem s.srcAddr s.srcStride row col 2)))).toNat

/-- CVT8888_565 completes and leaves in each destination pixel the source pixel's truncated channels, its alpha discarded
(45_pixel; 20_memory §2). -/
def Obligations.NarrowingConvertsEveryPixel : Prop :=
  ∀ s : State, RectReady s .cvt8888To565 (narrowPixels s) →
    RectCompletes s (exec .cvt8888To565 s) 2 fun row col =>
      let p := Memory.load s.mem 4 (elem s.srcAddr s.srcStride row col 4)
      (p / 2 ^ 16 % 256 / 8) * 2 ^ 11 + (p / 2 ^ 8 % 256 / 4) * 2 ^ 5 + p % 256 / 8

/-- Pack565 truncates each channel (20_memory R91); To565 packs the three low bytes and discards the alpha (R92); To8888 is
alpha 255 and the expanded channels (R93); Expand5 and Expand6 under both settings, their ends, and the round trip
To565(To8888(p)) = p (R94). -/
def Obligations.ExpansionRoundTrips : Prop :=
  (∀ v, v < 32 → expand5 .replicate v = v * 8 + v / 4 ∧ expand5 .shift v = v * 8) ∧
  (∀ v, v < 64 → expand6 .replicate v = v * 4 + v / 16 ∧ expand6 .shift v = v * 4) ∧
  expand5 .replicate 0 = 0 ∧ expand5 .replicate 31 = 255 ∧ expand6 .replicate 0 = 0 ∧ expand6 .replicate 63 = 255 ∧
  (∀ r g b, r < 256 → g < 256 → b < 256 → (pack565 r g b).toNat = r / 8 * 2 ^ 11 + g / 4 * 2 ^ 5 + b / 8) ∧
  (∀ p : Word, to565 p = pack565 (p.toNat / 2 ^ 16 % 256) (p.toNat / 2 ^ 8 % 256) (p.toNat % 256)) ∧
  ∀ (e : Rgb565Expand) (p : Half),
    (to8888 e p).toNat = 255 * 2 ^ 24 + expand5 e (p.toNat / 2 ^ 11) * 2 ^ 16 + expand6 e (p.toNat / 2 ^ 5 % 64) * 2 ^ 8 +
      expand5 e (p.toNat % 32) ∧
    to565 (to8888 e p) = p

/-! ### The blender -/

/-- BLEND completes: with an RGB565 source each pixel is copied, widened for an ARGB8888 destination; with an ARGB8888
source each destination pixel becomes BlendPixel of the source and destination pixels (46_blend). -/
def Obligations.BlendCompositesEveryPixel : Prop :=
  ∀ (s : State) (sf df : PixelFormat), RectReady s (.blend sf df) (blendPixels s sf df) →
    RectCompletes s (exec (.blend sf df) s) (bpp df) fun row col =>
      let src := Memory.load s.mem (bpp sf) (elem s.srcAddr s.srcStride row col (bpp sf))
      let dst := Memory.load s.mem (bpp df) (elem s.dstAddr s.dstStride row col (bpp df))
      match sf, df with
      | .rgb565, .rgb565 => src
      | .rgb565, .argb8888 => (to8888 s.cfg.expand (BitVec.ofNat 16 src)).toNat
      | .argb8888, _ => (blendPixel s.cfg.expand (BitVec.ofNat 32 src) (BitVec.ofNat 32 dst) df).toNat

/-- BlendPixel is the source's formula, term for term, with floor division; an RGB565 destination is opaque (46_blend,
BlendPixel). -/
def Obligations.BlendPixelIsTheOverFormula : Prop :=
  ∀ (e : Rgb565Expand) (src d : Word) (h : Half),
    let af := src.toNat / 2 ^ 24
    let mix := fun (bg : Nat) (ab k : Nat) =>
      (src.toNat / 2 ^ k % 256 * af + bg / 2 ^ k % 256 * ab - bg / 2 ^ k % 256 * (af * ab / 255)) /
        (af + ab - af * ab / 255)
    let ab := d.toNat / 2 ^ 24
    (af + ab - af * ab / 255 ≠ 0 → (blendPixel e src d .argb8888).toNat =
      (af + ab - af * ab / 255) * 2 ^ 24 + mix d.toNat ab 16 * 2 ^ 16 + mix d.toNat ab 8 * 2 ^ 8 + mix d.toNat ab 0) ∧
    (blendPixel e src (h.setWidth 32) .rgb565).toNat =
      (mix (to8888 e h).toNat 255 16 / 8) * 2 ^ 11 + (mix (to8888 e h).toNat 255 8 / 4) * 2 ^ 5 +
        mix (to8888 e h).toNat 255 0 / 8

/-- The bounds of the blend: a_mult at most either alpha, a_out at least either and at most 255, and every channel at most
255, so no clamp is needed (46_blend R314). -/
def Obligations.BlendChannelsFitEightBits : Prop :=
  ∀ af ab cf cb : Nat, af ≤ 255 → ab ≤ 255 → cf ≤ 255 → cb ≤ 255 →
    alphaMult af ab ≤ min af ab ∧ max af ab ≤ alphaOut af ab ∧
    alphaOut af ab = 255 - (255 - af) * (255 - ab) / 255 ∧ alphaOut af ab ≤ 255 ∧
    cf * af + cb * (ab - alphaMult af ab) ≤ 255 * alphaOut af ab ∧ overChannel af ab cf cb ≤ 255

/-- The source's identities: an opaque foreground gives the foreground (packed for RGB565), a transparent one leaves the
destination unchanged, and a_out = 0, which needs both alphas 0 and an ARGB8888 destination, keeps the destination word
(46_blend R313, R315). -/
def Obligations.OpaqueAndTransparentForegrounds : Prop :=
  ∀ (e : Rgb565Expand) (src d : Word) (h : Half),
    (alphaOf src = 255 → blendPixel e src d .argb8888 = src ∧
      blendPixel e src (h.setWidth 32) .rgb565 = (to565 src).setWidth 32) ∧
    (alphaOf src = 0 → blendPixel e src d .argb8888 = d ∧ blendPixel e src (h.setWidth 32) .rgb565 = h.setWidth 32) ∧
    (∀ ab cf cb, ab ≤ 255 → alphaMult 255 ab = ab ∧ alphaOut 255 ab = 255 ∧ overChannel 255 ab cf cb = cf) ∧
    (∀ ab cf cb, alphaMult 0 ab = 0 ∧ alphaOut 0 ab = ab ∧ (0 < ab → overChannel 0 ab cf cb = cb)) ∧
    (∀ af ab, af ≤ 255 → ab ≤ 255 → (alphaOut af ab = 0 ↔ af = 0 ∧ ab = 0)) ∧
    alphaOf (background e (h.setWidth 32) .rgb565) = 255 ∧
    (alphaOut (alphaOf src) (alphaOf d) = 0 → blendPixel e src d .argb8888 = d)

/-! ### The whole machine -/

/-- The frame of every command: whatever it answers next, it changes no parameter register, no enable, not CMD, not WERR,
no byte of memory outside its write set, and of the internal state only what its rule names: PRED for RESET_DC, RESTART
and DECODE_BLOCK, the bit reader for RESTART and DECODE_BLOCK, QT and QV for LOAD_DQT, HT and HV for LOAD_DHT
(10_state R64). -/
def Obligations.CommandsChangeOnlyWhatTheirRulesName : Prop :=
  ∀ (i : Instr) (s t : State), exec i s = .next t →
    SameParameters s t ∧ SameMemoryOutside (writeSet i s) s t ∧
    (instrOpcode i ∉ [Opcode.resetDc, .restart, .decodeBlock] → t.pred = s.pred) ∧
    (instrOpcode i ∉ [Opcode.restart, .decodeBlock] →
      t.bsAddr = s.bsAddr ∧ t.bitbuf = s.bitbuf ∧ t.bitcnt = s.bitcnt) ∧
    (instrOpcode i ≠ .loadDqt → SameQuant s t) ∧ (instrOpcode i ≠ .loadDht → SameHuff s t)

/-- The invariant every step keeps: memory in canonical form, ERRCODE 0 exactly with ERR 0 and at most 12, DONE and ERR
never both, RESULT and ERR_ADDR cleared as acceptance clears them, BITCNT at most 8, and every valid Huffman slot the
canonical code of its counts; and no step changes the machine's parameters. So every reset-clean state meets it, whatever
the host did since reset (10_state §2, §3; 41_tables §2; 00_scope §5; 70_reset §2; the canonical form of memory is the
model's own, and reset-clean is as log 27 reads it). -/
def Obligations.EveryStepKeepsTheInvariant : Prop :=
  (∀ s t : State, s.Inv → step s = .next t → t.Inv ∧ t.cfg = s.cfg) ∧ ∀ s : State, ResetClean s → s.Inv

/-- The state after reset meets the invariant, and so does the R372 state with any parameters, canonical memory and host
moves, of which State.reset is one and a hardware reset leaves one (70_reset §1 Reset; what the R372 state leaves open is
as log 27 reads it). -/
def Obligations.ResetStateMeetsTheInvariant : Prop :=
  State.reset.Inv ∧ AtReset State.reset ∧ (∀ s : State, AtReset s → s.Inv) ∧
  ∀ s : State, Memory.wf s.mem = true → AtReset s.resetRegisters
end

