-- ==== Sys2Proof/Laws/State.lean ====
section
/-! SUPPORT. One lemma per field for each named update of State, so that no proof unfolds a record update. -/

namespace Sys2Proof.Machine

/-! ### `accept` -/

@[simp] theorem State.accept_cfg (s : State) (w : Word) : (s.accept w).cfg = s.cfg := rfl
@[simp] theorem State.accept_doneIe (s : State) (w : Word) : (s.accept w).doneIe = s.doneIe := rfl
@[simp] theorem State.accept_errIe (s : State) (w : Word) : (s.accept w).errIe = s.errIe := rfl
@[simp] theorem State.accept_busy (s : State) (w : Word) : (s.accept w).busy = true := rfl
@[simp] theorem State.accept_done (s : State) (w : Word) : (s.accept w).done = false := rfl
@[simp] theorem State.accept_err (s : State) (w : Word) : (s.accept w).err = false := rfl
@[simp] theorem State.accept_werr (s : State) (w : Word) : (s.accept w).werr = s.werr := rfl
@[simp] theorem State.accept_errcode (s : State) (w : Word) : (s.accept w).errcode = 0 := rfl
@[simp] theorem State.accept_cmd (s : State) (w : Word) : (s.accept w).cmd = w := rfl
@[simp] theorem State.accept_result (s : State) (w : Word) : (s.accept w).result = 0 := rfl
@[simp] theorem State.accept_errAddr (s : State) (w : Word) : (s.accept w).errAddr = 0 := rfl
@[simp] theorem State.accept_srcAddr (s : State) (w : Word) : (s.accept w).srcAddr = s.srcAddr := rfl
@[simp] theorem State.accept_srcStride (s : State) (w : Word) : (s.accept w).srcStride = s.srcStride := rfl
@[simp] theorem State.accept_dstAddr (s : State) (w : Word) : (s.accept w).dstAddr = s.dstAddr := rfl
@[simp] theorem State.accept_dstStride (s : State) (w : Word) : (s.accept w).dstStride = s.dstStride := rfl
@[simp] theorem State.accept_auxAddr (s : State) (w : Word) : (s.accept w).auxAddr = s.auxAddr := rfl
@[simp] theorem State.accept_aux2Addr (s : State) (w : Word) : (s.accept w).aux2Addr = s.aux2Addr := rfl
@[simp] theorem State.accept_auxStride (s : State) (w : Word) : (s.accept w).auxStride = s.auxStride := rfl
@[simp] theorem State.accept_dim (s : State) (w : Word) : (s.accept w).dim = s.dim := rfl
@[simp] theorem State.accept_bsAddr (s : State) (w : Word) : (s.accept w).bsAddr = s.bsAddr := rfl
@[simp] theorem State.accept_bsEnd (s : State) (w : Word) : (s.accept w).bsEnd = s.bsEnd := rfl
@[simp] theorem State.accept_bitbuf (s : State) (w : Word) : (s.accept w).bitbuf = s.bitbuf := rfl
@[simp] theorem State.accept_bitcnt (s : State) (w : Word) : (s.accept w).bitcnt = s.bitcnt := rfl
@[simp] theorem State.accept_pred (s : State) (w : Word) : (s.accept w).pred = s.pred := rfl
@[simp] theorem State.accept_qv (s : State) (w : Word) : (s.accept w).qv = s.qv := rfl
@[simp] theorem State.accept_qt (s : State) (w : Word) : (s.accept w).qt = s.qt := rfl
@[simp] theorem State.accept_hv (s : State) (w : Word) : (s.accept w).hv = s.hv := rfl
@[simp] theorem State.accept_ht (s : State) (w : Word) : (s.accept w).ht = s.ht := rfl
@[simp] theorem State.accept_mem (s : State) (w : Word) : (s.accept w).mem = s.mem := rfl
@[simp] theorem State.accept_turns (s : State) (w : Word) : (s.accept w).turns = s.turns := rfl
@[simp] theorem State.accept_hostData (s : State) (w : Word) : (s.accept w).hostData = s.hostData := rfl
@[simp] theorem State.accept_draws (s : State) (w : Word) : (s.accept w).draws = s.draws := rfl

/-! ### `complete` -/

@[simp] theorem State.complete_cfg (s : State) (v : Word) : (s.complete v).cfg = s.cfg := rfl
@[simp] theorem State.complete_doneIe (s : State) (v : Word) : (s.complete v).doneIe = s.doneIe := rfl
@[simp] theorem State.complete_errIe (s : State) (v : Word) : (s.complete v).errIe = s.errIe := rfl
@[simp] theorem State.complete_busy (s : State) (v : Word) : (s.complete v).busy = false := rfl
@[simp] theorem State.complete_done (s : State) (v : Word) : (s.complete v).done = true := rfl
@[simp] theorem State.complete_err (s : State) (v : Word) : (s.complete v).err = s.err := rfl
@[simp] theorem State.complete_werr (s : State) (v : Word) : (s.complete v).werr = s.werr := rfl
@[simp] theorem State.complete_errcode (s : State) (v : Word) : (s.complete v).errcode = s.errcode := rfl
@[simp] theorem State.complete_cmd (s : State) (v : Word) : (s.complete v).cmd = s.cmd := rfl
@[simp] theorem State.complete_result (s : State) (v : Word) : (s.complete v).result = v := rfl
@[simp] theorem State.complete_errAddr (s : State) (v : Word) : (s.complete v).errAddr = s.errAddr := rfl
@[simp] theorem State.complete_srcAddr (s : State) (v : Word) : (s.complete v).srcAddr = s.srcAddr := rfl
@[simp] theorem State.complete_srcStride (s : State) (v : Word) : (s.complete v).srcStride = s.srcStride := rfl
@[simp] theorem State.complete_dstAddr (s : State) (v : Word) : (s.complete v).dstAddr = s.dstAddr := rfl
@[simp] theorem State.complete_dstStride (s : State) (v : Word) : (s.complete v).dstStride = s.dstStride := rfl
@[simp] theorem State.complete_auxAddr (s : State) (v : Word) : (s.complete v).auxAddr = s.auxAddr := rfl
@[simp] theorem State.complete_aux2Addr (s : State) (v : Word) : (s.complete v).aux2Addr = s.aux2Addr := rfl
@[simp] theorem State.complete_auxStride (s : State) (v : Word) : (s.complete v).auxStride = s.auxStride := rfl
@[simp] theorem State.complete_dim (s : State) (v : Word) : (s.complete v).dim = s.dim := rfl
@[simp] theorem State.complete_bsAddr (s : State) (v : Word) : (s.complete v).bsAddr = s.bsAddr := rfl
@[simp] theorem State.complete_bsEnd (s : State) (v : Word) : (s.complete v).bsEnd = s.bsEnd := rfl
@[simp] theorem State.complete_bitbuf (s : State) (v : Word) : (s.complete v).bitbuf = s.bitbuf := rfl
@[simp] theorem State.complete_bitcnt (s : State) (v : Word) : (s.complete v).bitcnt = s.bitcnt := rfl
@[simp] theorem State.complete_pred (s : State) (v : Word) : (s.complete v).pred = s.pred := rfl
@[simp] theorem State.complete_qv (s : State) (v : Word) : (s.complete v).qv = s.qv := rfl
@[simp] theorem State.complete_qt (s : State) (v : Word) : (s.complete v).qt = s.qt := rfl
@[simp] theorem State.complete_hv (s : State) (v : Word) : (s.complete v).hv = s.hv := rfl
@[simp] theorem State.complete_ht (s : State) (v : Word) : (s.complete v).ht = s.ht := rfl
@[simp] theorem State.complete_mem (s : State) (v : Word) : (s.complete v).mem = s.mem := rfl
@[simp] theorem State.complete_turns (s : State) (v : Word) : (s.complete v).turns = s.turns := rfl
@[simp] theorem State.complete_hostData (s : State) (v : Word) : (s.complete v).hostData = s.hostData := rfl
@[simp] theorem State.complete_draws (s : State) (v : Word) : (s.complete v).draws = s.draws := rfl

/-! ### `raise` -/

@[simp] theorem State.raise_cfg (s : State) (c : ErrCode) (a : Word) : (s.raise c a).cfg = s.cfg := rfl
@[simp] theorem State.raise_doneIe (s : State) (c : ErrCode) (a : Word) : (s.raise c a).doneIe = s.doneIe := rfl
@[simp] theorem State.raise_errIe (s : State) (c : ErrCode) (a : Word) : (s.raise c a).errIe = s.errIe := rfl
@[simp] theorem State.raise_busy (s : State) (c : ErrCode) (a : Word) : (s.raise c a).busy = false := rfl
@[simp] theorem State.raise_done (s : State) (c : ErrCode) (a : Word) : (s.raise c a).done = s.done := rfl
@[simp] theorem State.raise_err (s : State) (c : ErrCode) (a : Word) : (s.raise c a).err = true := rfl
@[simp] theorem State.raise_werr (s : State) (c : ErrCode) (a : Word) : (s.raise c a).werr = s.werr := rfl
@[simp] theorem State.raise_errcode (s : State) (c : ErrCode) (a : Word) : (s.raise c a).errcode = errBits c := rfl
@[simp] theorem State.raise_cmd (s : State) (c : ErrCode) (a : Word) : (s.raise c a).cmd = s.cmd := rfl
@[simp] theorem State.raise_result (s : State) (c : ErrCode) (a : Word) : (s.raise c a).result = s.result := rfl
@[simp] theorem State.raise_errAddr (s : State) (c : ErrCode) (a : Word) : (s.raise c a).errAddr = a := rfl
@[simp] theorem State.raise_srcAddr (s : State) (c : ErrCode) (a : Word) : (s.raise c a).srcAddr = s.srcAddr := rfl
@[simp] theorem State.raise_srcStride (s : State) (c : ErrCode) (a : Word) : (s.raise c a).srcStride = s.srcStride := rfl
@[simp] theorem State.raise_dstAddr (s : State) (c : ErrCode) (a : Word) : (s.raise c a).dstAddr = s.dstAddr := rfl
@[simp] theorem State.raise_dstStride (s : State) (c : ErrCode) (a : Word) : (s.raise c a).dstStride = s.dstStride := rfl
@[simp] theorem State.raise_auxAddr (s : State) (c : ErrCode) (a : Word) : (s.raise c a).auxAddr = s.auxAddr := rfl
@[simp] theorem State.raise_aux2Addr (s : State) (c : ErrCode) (a : Word) : (s.raise c a).aux2Addr = s.aux2Addr := rfl
@[simp] theorem State.raise_auxStride (s : State) (c : ErrCode) (a : Word) : (s.raise c a).auxStride = s.auxStride := rfl
@[simp] theorem State.raise_dim (s : State) (c : ErrCode) (a : Word) : (s.raise c a).dim = s.dim := rfl
@[simp] theorem State.raise_bsAddr (s : State) (c : ErrCode) (a : Word) : (s.raise c a).bsAddr = s.bsAddr := rfl
@[simp] theorem State.raise_bsEnd (s : State) (c : ErrCode) (a : Word) : (s.raise c a).bsEnd = s.bsEnd := rfl
@[simp] theorem State.raise_bitbuf (s : State) (c : ErrCode) (a : Word) : (s.raise c a).bitbuf = s.bitbuf := rfl
@[simp] theorem State.raise_bitcnt (s : State) (c : ErrCode) (a : Word) : (s.raise c a).bitcnt = s.bitcnt := rfl
@[simp] theorem State.raise_pred (s : State) (c : ErrCode) (a : Word) : (s.raise c a).pred = s.pred := rfl
@[simp] theorem State.raise_qv (s : State) (c : ErrCode) (a : Word) : (s.raise c a).qv = s.qv := rfl
@[simp] theorem State.raise_qt (s : State) (c : ErrCode) (a : Word) : (s.raise c a).qt = s.qt := rfl
@[simp] theorem State.raise_hv (s : State) (c : ErrCode) (a : Word) : (s.raise c a).hv = s.hv := rfl
@[simp] theorem State.raise_ht (s : State) (c : ErrCode) (a : Word) : (s.raise c a).ht = s.ht := rfl
@[simp] theorem State.raise_mem (s : State) (c : ErrCode) (a : Word) : (s.raise c a).mem = s.mem := rfl
@[simp] theorem State.raise_turns (s : State) (c : ErrCode) (a : Word) : (s.raise c a).turns = s.turns := rfl
@[simp] theorem State.raise_hostData (s : State) (c : ErrCode) (a : Word) : (s.raise c a).hostData = s.hostData := rfl
@[simp] theorem State.raise_draws (s : State) (c : ErrCode) (a : Word) : (s.raise c a).draws = s.draws := rfl

/-! ### `clearFlags` -/

@[simp] theorem State.clearFlags_cfg (s : State) (v : Word) : (s.clearFlags v).cfg = s.cfg := rfl
@[simp] theorem State.clearFlags_doneIe (s : State) (v : Word) : (s.clearFlags v).doneIe = s.doneIe := rfl
@[simp] theorem State.clearFlags_errIe (s : State) (v : Word) : (s.clearFlags v).errIe = s.errIe := rfl
@[simp] theorem State.clearFlags_busy (s : State) (v : Word) : (s.clearFlags v).busy = s.busy := rfl
@[simp] theorem State.clearFlags_done (s : State) (v : Word) : (s.clearFlags v).done = (s.done && !v.getLsbD 1) := rfl
@[simp] theorem State.clearFlags_err (s : State) (v : Word) : (s.clearFlags v).err = (s.err && !v.getLsbD 2) := rfl
@[simp] theorem State.clearFlags_werr (s : State) (v : Word) : (s.clearFlags v).werr = (s.werr && !v.getLsbD 3) := rfl
@[simp] theorem State.clearFlags_errcode (s : State) (v : Word) : (s.clearFlags v).errcode = (if v.getLsbD 2 then 0#4 else s.errcode) := rfl
@[simp] theorem State.clearFlags_cmd (s : State) (v : Word) : (s.clearFlags v).cmd = s.cmd := rfl
@[simp] theorem State.clearFlags_result (s : State) (v : Word) : (s.clearFlags v).result = s.result := rfl
@[simp] theorem State.clearFlags_errAddr (s : State) (v : Word) : (s.clearFlags v).errAddr = s.errAddr := rfl
@[simp] theorem State.clearFlags_srcAddr (s : State) (v : Word) : (s.clearFlags v).srcAddr = s.srcAddr := rfl
@[simp] theorem State.clearFlags_srcStride (s : State) (v : Word) : (s.clearFlags v).srcStride = s.srcStride := rfl
@[simp] theorem State.clearFlags_dstAddr (s : State) (v : Word) : (s.clearFlags v).dstAddr = s.dstAddr := rfl
@[simp] theorem State.clearFlags_dstStride (s : State) (v : Word) : (s.clearFlags v).dstStride = s.dstStride := rfl
@[simp] theorem State.clearFlags_auxAddr (s : State) (v : Word) : (s.clearFlags v).auxAddr = s.auxAddr := rfl
@[simp] theorem State.clearFlags_aux2Addr (s : State) (v : Word) : (s.clearFlags v).aux2Addr = s.aux2Addr := rfl
@[simp] theorem State.clearFlags_auxStride (s : State) (v : Word) : (s.clearFlags v).auxStride = s.auxStride := rfl
@[simp] theorem State.clearFlags_dim (s : State) (v : Word) : (s.clearFlags v).dim = s.dim := rfl
@[simp] theorem State.clearFlags_bsAddr (s : State) (v : Word) : (s.clearFlags v).bsAddr = s.bsAddr := rfl
@[simp] theorem State.clearFlags_bsEnd (s : State) (v : Word) : (s.clearFlags v).bsEnd = s.bsEnd := rfl
@[simp] theorem State.clearFlags_bitbuf (s : State) (v : Word) : (s.clearFlags v).bitbuf = s.bitbuf := rfl
@[simp] theorem State.clearFlags_bitcnt (s : State) (v : Word) : (s.clearFlags v).bitcnt = s.bitcnt := rfl
@[simp] theorem State.clearFlags_pred (s : State) (v : Word) : (s.clearFlags v).pred = s.pred := rfl
@[simp] theorem State.clearFlags_qv (s : State) (v : Word) : (s.clearFlags v).qv = s.qv := rfl
@[simp] theorem State.clearFlags_qt (s : State) (v : Word) : (s.clearFlags v).qt = s.qt := rfl
@[simp] theorem State.clearFlags_hv (s : State) (v : Word) : (s.clearFlags v).hv = s.hv := rfl
@[simp] theorem State.clearFlags_ht (s : State) (v : Word) : (s.clearFlags v).ht = s.ht := rfl
@[simp] theorem State.clearFlags_mem (s : State) (v : Word) : (s.clearFlags v).mem = s.mem := rfl
@[simp] theorem State.clearFlags_turns (s : State) (v : Word) : (s.clearFlags v).turns = s.turns := rfl
@[simp] theorem State.clearFlags_hostData (s : State) (v : Word) : (s.clearFlags v).hostData = s.hostData := rfl
@[simp] theorem State.clearFlags_draws (s : State) (v : Word) : (s.clearFlags v).draws = s.draws := rfl

/-! ### `setMem` -/

@[simp] theorem State.setMem_cfg (s : State) (m : Memory) : (s.setMem m).cfg = s.cfg := rfl
@[simp] theorem State.setMem_doneIe (s : State) (m : Memory) : (s.setMem m).doneIe = s.doneIe := rfl
@[simp] theorem State.setMem_errIe (s : State) (m : Memory) : (s.setMem m).errIe = s.errIe := rfl
@[simp] theorem State.setMem_busy (s : State) (m : Memory) : (s.setMem m).busy = s.busy := rfl
@[simp] theorem State.setMem_done (s : State) (m : Memory) : (s.setMem m).done = s.done := rfl
@[simp] theorem State.setMem_err (s : State) (m : Memory) : (s.setMem m).err = s.err := rfl
@[simp] theorem State.setMem_werr (s : State) (m : Memory) : (s.setMem m).werr = s.werr := rfl
@[simp] theorem State.setMem_errcode (s : State) (m : Memory) : (s.setMem m).errcode = s.errcode := rfl
@[simp] theorem State.setMem_cmd (s : State) (m : Memory) : (s.setMem m).cmd = s.cmd := rfl
@[simp] theorem State.setMem_result (s : State) (m : Memory) : (s.setMem m).result = s.result := rfl
@[simp] theorem State.setMem_errAddr (s : State) (m : Memory) : (s.setMem m).errAddr = s.errAddr := rfl
@[simp] theorem State.setMem_srcAddr (s : State) (m : Memory) : (s.setMem m).srcAddr = s.srcAddr := rfl
@[simp] theorem State.setMem_srcStride (s : State) (m : Memory) : (s.setMem m).srcStride = s.srcStride := rfl
@[simp] theorem State.setMem_dstAddr (s : State) (m : Memory) : (s.setMem m).dstAddr = s.dstAddr := rfl
@[simp] theorem State.setMem_dstStride (s : State) (m : Memory) : (s.setMem m).dstStride = s.dstStride := rfl
@[simp] theorem State.setMem_auxAddr (s : State) (m : Memory) : (s.setMem m).auxAddr = s.auxAddr := rfl
@[simp] theorem State.setMem_aux2Addr (s : State) (m : Memory) : (s.setMem m).aux2Addr = s.aux2Addr := rfl
@[simp] theorem State.setMem_auxStride (s : State) (m : Memory) : (s.setMem m).auxStride = s.auxStride := rfl
@[simp] theorem State.setMem_dim (s : State) (m : Memory) : (s.setMem m).dim = s.dim := rfl
@[simp] theorem State.setMem_bsAddr (s : State) (m : Memory) : (s.setMem m).bsAddr = s.bsAddr := rfl
@[simp] theorem State.setMem_bsEnd (s : State) (m : Memory) : (s.setMem m).bsEnd = s.bsEnd := rfl
@[simp] theorem State.setMem_bitbuf (s : State) (m : Memory) : (s.setMem m).bitbuf = s.bitbuf := rfl
@[simp] theorem State.setMem_bitcnt (s : State) (m : Memory) : (s.setMem m).bitcnt = s.bitcnt := rfl
@[simp] theorem State.setMem_pred (s : State) (m : Memory) : (s.setMem m).pred = s.pred := rfl
@[simp] theorem State.setMem_qv (s : State) (m : Memory) : (s.setMem m).qv = s.qv := rfl
@[simp] theorem State.setMem_qt (s : State) (m : Memory) : (s.setMem m).qt = s.qt := rfl
@[simp] theorem State.setMem_hv (s : State) (m : Memory) : (s.setMem m).hv = s.hv := rfl
@[simp] theorem State.setMem_ht (s : State) (m : Memory) : (s.setMem m).ht = s.ht := rfl
@[simp] theorem State.setMem_mem (s : State) (m : Memory) : (s.setMem m).mem = m := rfl
@[simp] theorem State.setMem_turns (s : State) (m : Memory) : (s.setMem m).turns = s.turns := rfl
@[simp] theorem State.setMem_hostData (s : State) (m : Memory) : (s.setMem m).hostData = s.hostData := rfl
@[simp] theorem State.setMem_draws (s : State) (m : Memory) : (s.setMem m).draws = s.draws := rfl

/-! ### `clearPred` -/

@[simp] theorem State.clearPred_cfg (s : State) : (s.clearPred).cfg = s.cfg := rfl
@[simp] theorem State.clearPred_doneIe (s : State) : (s.clearPred).doneIe = s.doneIe := rfl
@[simp] theorem State.clearPred_errIe (s : State) : (s.clearPred).errIe = s.errIe := rfl
@[simp] theorem State.clearPred_busy (s : State) : (s.clearPred).busy = s.busy := rfl
@[simp] theorem State.clearPred_done (s : State) : (s.clearPred).done = s.done := rfl
@[simp] theorem State.clearPred_err (s : State) : (s.clearPred).err = s.err := rfl
@[simp] theorem State.clearPred_werr (s : State) : (s.clearPred).werr = s.werr := rfl
@[simp] theorem State.clearPred_errcode (s : State) : (s.clearPred).errcode = s.errcode := rfl
@[simp] theorem State.clearPred_cmd (s : State) : (s.clearPred).cmd = s.cmd := rfl
@[simp] theorem State.clearPred_result (s : State) : (s.clearPred).result = s.result := rfl
@[simp] theorem State.clearPred_errAddr (s : State) : (s.clearPred).errAddr = s.errAddr := rfl
@[simp] theorem State.clearPred_srcAddr (s : State) : (s.clearPred).srcAddr = s.srcAddr := rfl
@[simp] theorem State.clearPred_srcStride (s : State) : (s.clearPred).srcStride = s.srcStride := rfl
@[simp] theorem State.clearPred_dstAddr (s : State) : (s.clearPred).dstAddr = s.dstAddr := rfl
@[simp] theorem State.clearPred_dstStride (s : State) : (s.clearPred).dstStride = s.dstStride := rfl
@[simp] theorem State.clearPred_auxAddr (s : State) : (s.clearPred).auxAddr = s.auxAddr := rfl
@[simp] theorem State.clearPred_aux2Addr (s : State) : (s.clearPred).aux2Addr = s.aux2Addr := rfl
@[simp] theorem State.clearPred_auxStride (s : State) : (s.clearPred).auxStride = s.auxStride := rfl
@[simp] theorem State.clearPred_dim (s : State) : (s.clearPred).dim = s.dim := rfl
@[simp] theorem State.clearPred_bsAddr (s : State) : (s.clearPred).bsAddr = s.bsAddr := rfl
@[simp] theorem State.clearPred_bsEnd (s : State) : (s.clearPred).bsEnd = s.bsEnd := rfl
@[simp] theorem State.clearPred_bitbuf (s : State) : (s.clearPred).bitbuf = s.bitbuf := rfl
@[simp] theorem State.clearPred_bitcnt (s : State) : (s.clearPred).bitcnt = s.bitcnt := rfl
@[simp] theorem State.clearPred_pred (s : State) : (s.clearPred).pred = Vector.replicate 3 0#16 := rfl
@[simp] theorem State.clearPred_qv (s : State) : (s.clearPred).qv = s.qv := rfl
@[simp] theorem State.clearPred_qt (s : State) : (s.clearPred).qt = s.qt := rfl
@[simp] theorem State.clearPred_hv (s : State) : (s.clearPred).hv = s.hv := rfl
@[simp] theorem State.clearPred_ht (s : State) : (s.clearPred).ht = s.ht := rfl
@[simp] theorem State.clearPred_mem (s : State) : (s.clearPred).mem = s.mem := rfl
@[simp] theorem State.clearPred_turns (s : State) : (s.clearPred).turns = s.turns := rfl
@[simp] theorem State.clearPred_hostData (s : State) : (s.clearPred).hostData = s.hostData := rfl
@[simp] theorem State.clearPred_draws (s : State) : (s.clearPred).draws = s.draws := rfl

/-! ### `setPred` -/

@[simp] theorem State.setPred_cfg (s : State) (c : Fin 3) (v : Half) : (s.setPred c v).cfg = s.cfg := rfl
@[simp] theorem State.setPred_doneIe (s : State) (c : Fin 3) (v : Half) : (s.setPred c v).doneIe = s.doneIe := rfl
@[simp] theorem State.setPred_errIe (s : State) (c : Fin 3) (v : Half) : (s.setPred c v).errIe = s.errIe := rfl
@[simp] theorem State.setPred_busy (s : State) (c : Fin 3) (v : Half) : (s.setPred c v).busy = s.busy := rfl
@[simp] theorem State.setPred_done (s : State) (c : Fin 3) (v : Half) : (s.setPred c v).done = s.done := rfl
@[simp] theorem State.setPred_err (s : State) (c : Fin 3) (v : Half) : (s.setPred c v).err = s.err := rfl
@[simp] theorem State.setPred_werr (s : State) (c : Fin 3) (v : Half) : (s.setPred c v).werr = s.werr := rfl
@[simp] theorem State.setPred_errcode (s : State) (c : Fin 3) (v : Half) : (s.setPred c v).errcode = s.errcode := rfl
@[simp] theorem State.setPred_cmd (s : State) (c : Fin 3) (v : Half) : (s.setPred c v).cmd = s.cmd := rfl
@[simp] theorem State.setPred_result (s : State) (c : Fin 3) (v : Half) : (s.setPred c v).result = s.result := rfl
@[simp] theorem State.setPred_errAddr (s : State) (c : Fin 3) (v : Half) : (s.setPred c v).errAddr = s.errAddr := rfl
@[simp] theorem State.setPred_srcAddr (s : State) (c : Fin 3) (v : Half) : (s.setPred c v).srcAddr = s.srcAddr := rfl
@[simp] theorem State.setPred_srcStride (s : State) (c : Fin 3) (v : Half) : (s.setPred c v).srcStride = s.srcStride := rfl
@[simp] theorem State.setPred_dstAddr (s : State) (c : Fin 3) (v : Half) : (s.setPred c v).dstAddr = s.dstAddr := rfl
@[simp] theorem State.setPred_dstStride (s : State) (c : Fin 3) (v : Half) : (s.setPred c v).dstStride = s.dstStride := rfl
@[simp] theorem State.setPred_auxAddr (s : State) (c : Fin 3) (v : Half) : (s.setPred c v).auxAddr = s.auxAddr := rfl
@[simp] theorem State.setPred_aux2Addr (s : State) (c : Fin 3) (v : Half) : (s.setPred c v).aux2Addr = s.aux2Addr := rfl
@[simp] theorem State.setPred_auxStride (s : State) (c : Fin 3) (v : Half) : (s.setPred c v).auxStride = s.auxStride := rfl
@[simp] theorem State.setPred_dim (s : State) (c : Fin 3) (v : Half) : (s.setPred c v).dim = s.dim := rfl
@[simp] theorem State.setPred_bsAddr (s : State) (c : Fin 3) (v : Half) : (s.setPred c v).bsAddr = s.bsAddr := rfl
@[simp] theorem State.setPred_bsEnd (s : State) (c : Fin 3) (v : Half) : (s.setPred c v).bsEnd = s.bsEnd := rfl
@[simp] theorem State.setPred_bitbuf (s : State) (c : Fin 3) (v : Half) : (s.setPred c v).bitbuf = s.bitbuf := rfl
@[simp] theorem State.setPred_bitcnt (s : State) (c : Fin 3) (v : Half) : (s.setPred c v).bitcnt = s.bitcnt := rfl
@[simp] theorem State.setPred_pred (s : State) (c : Fin 3) (v : Half) : (s.setPred c v).pred = s.pred.set c v := rfl
@[simp] theorem State.setPred_qv (s : State) (c : Fin 3) (v : Half) : (s.setPred c v).qv = s.qv := rfl
@[simp] theorem State.setPred_qt (s : State) (c : Fin 3) (v : Half) : (s.setPred c v).qt = s.qt := rfl
@[simp] theorem State.setPred_hv (s : State) (c : Fin 3) (v : Half) : (s.setPred c v).hv = s.hv := rfl
@[simp] theorem State.setPred_ht (s : State) (c : Fin 3) (v : Half) : (s.setPred c v).ht = s.ht := rfl
@[simp] theorem State.setPred_mem (s : State) (c : Fin 3) (v : Half) : (s.setPred c v).mem = s.mem := rfl
@[simp] theorem State.setPred_turns (s : State) (c : Fin 3) (v : Half) : (s.setPred c v).turns = s.turns := rfl
@[simp] theorem State.setPred_hostData (s : State) (c : Fin 3) (v : Half) : (s.setPred c v).hostData = s.hostData := rfl
@[simp] theorem State.setPred_draws (s : State) (c : Fin 3) (v : Half) : (s.setPred c v).draws = s.draws := rfl

/-! ### `setReader` -/

@[simp] theorem State.setReader_cfg (s : State) (a : Word) (b : Byte) (n : Nat) : (s.setReader a b n).cfg = s.cfg := rfl
@[simp] theorem State.setReader_doneIe (s : State) (a : Word) (b : Byte) (n : Nat) : (s.setReader a b n).doneIe = s.doneIe := rfl
@[simp] theorem State.setReader_errIe (s : State) (a : Word) (b : Byte) (n : Nat) : (s.setReader a b n).errIe = s.errIe := rfl
@[simp] theorem State.setReader_busy (s : State) (a : Word) (b : Byte) (n : Nat) : (s.setReader a b n).busy = s.busy := rfl
@[simp] theorem State.setReader_done (s : State) (a : Word) (b : Byte) (n : Nat) : (s.setReader a b n).done = s.done := rfl
@[simp] theorem State.setReader_err (s : State) (a : Word) (b : Byte) (n : Nat) : (s.setReader a b n).err = s.err := rfl
@[simp] theorem State.setReader_werr (s : State) (a : Word) (b : Byte) (n : Nat) : (s.setReader a b n).werr = s.werr := rfl
@[simp] theorem State.setReader_errcode (s : State) (a : Word) (b : Byte) (n : Nat) : (s.setReader a b n).errcode = s.errcode := rfl
@[simp] theorem State.setReader_cmd (s : State) (a : Word) (b : Byte) (n : Nat) : (s.setReader a b n).cmd = s.cmd := rfl
@[simp] theorem State.setReader_result (s : State) (a : Word) (b : Byte) (n : Nat) : (s.setReader a b n).result = s.result := rfl
@[simp] theorem State.setReader_errAddr (s : State) (a : Word) (b : Byte) (n : Nat) : (s.setReader a b n).errAddr = s.errAddr := rfl
@[simp] theorem State.setReader_srcAddr (s : State) (a : Word) (b : Byte) (n : Nat) : (s.setReader a b n).srcAddr = s.srcAddr := rfl
@[simp] theorem State.setReader_srcStride (s : State) (a : Word) (b : Byte) (n : Nat) : (s.setReader a b n).srcStride = s.srcStride := rfl
@[simp] theorem State.setReader_dstAddr (s : State) (a : Word) (b : Byte) (n : Nat) : (s.setReader a b n).dstAddr = s.dstAddr := rfl
@[simp] theorem State.setReader_dstStride (s : State) (a : Word) (b : Byte) (n : Nat) : (s.setReader a b n).dstStride = s.dstStride := rfl
@[simp] theorem State.setReader_auxAddr (s : State) (a : Word) (b : Byte) (n : Nat) : (s.setReader a b n).auxAddr = s.auxAddr := rfl
@[simp] theorem State.setReader_aux2Addr (s : State) (a : Word) (b : Byte) (n : Nat) : (s.setReader a b n).aux2Addr = s.aux2Addr := rfl
@[simp] theorem State.setReader_auxStride (s : State) (a : Word) (b : Byte) (n : Nat) : (s.setReader a b n).auxStride = s.auxStride := rfl
@[simp] theorem State.setReader_dim (s : State) (a : Word) (b : Byte) (n : Nat) : (s.setReader a b n).dim = s.dim := rfl
@[simp] theorem State.setReader_bsAddr (s : State) (a : Word) (b : Byte) (n : Nat) : (s.setReader a b n).bsAddr = a := rfl
@[simp] theorem State.setReader_bsEnd (s : State) (a : Word) (b : Byte) (n : Nat) : (s.setReader a b n).bsEnd = s.bsEnd := rfl
@[simp] theorem State.setReader_bitbuf (s : State) (a : Word) (b : Byte) (n : Nat) : (s.setReader a b n).bitbuf = b := rfl
@[simp] theorem State.setReader_bitcnt (s : State) (a : Word) (b : Byte) (n : Nat) : (s.setReader a b n).bitcnt = n := rfl
@[simp] theorem State.setReader_pred (s : State) (a : Word) (b : Byte) (n : Nat) : (s.setReader a b n).pred = s.pred := rfl
@[simp] theorem State.setReader_qv (s : State) (a : Word) (b : Byte) (n : Nat) : (s.setReader a b n).qv = s.qv := rfl
@[simp] theorem State.setReader_qt (s : State) (a : Word) (b : Byte) (n : Nat) : (s.setReader a b n).qt = s.qt := rfl
@[simp] theorem State.setReader_hv (s : State) (a : Word) (b : Byte) (n : Nat) : (s.setReader a b n).hv = s.hv := rfl
@[simp] theorem State.setReader_ht (s : State) (a : Word) (b : Byte) (n : Nat) : (s.setReader a b n).ht = s.ht := rfl
@[simp] theorem State.setReader_mem (s : State) (a : Word) (b : Byte) (n : Nat) : (s.setReader a b n).mem = s.mem := rfl
@[simp] theorem State.setReader_turns (s : State) (a : Word) (b : Byte) (n : Nat) : (s.setReader a b n).turns = s.turns := rfl
@[simp] theorem State.setReader_hostData (s : State) (a : Word) (b : Byte) (n : Nat) : (s.setReader a b n).hostData = s.hostData := rfl
@[simp] theorem State.setReader_draws (s : State) (a : Word) (b : Byte) (n : Nat) : (s.setReader a b n).draws = s.draws := rfl

/-! ### `setQuant` -/

@[simp] theorem State.setQuant_cfg (s : State) (q : Fin 3) (t : QuantTable) : (s.setQuant q t).cfg = s.cfg := rfl
@[simp] theorem State.setQuant_doneIe (s : State) (q : Fin 3) (t : QuantTable) : (s.setQuant q t).doneIe = s.doneIe := rfl
@[simp] theorem State.setQuant_errIe (s : State) (q : Fin 3) (t : QuantTable) : (s.setQuant q t).errIe = s.errIe := rfl
@[simp] theorem State.setQuant_busy (s : State) (q : Fin 3) (t : QuantTable) : (s.setQuant q t).busy = s.busy := rfl
@[simp] theorem State.setQuant_done (s : State) (q : Fin 3) (t : QuantTable) : (s.setQuant q t).done = s.done := rfl
@[simp] theorem State.setQuant_err (s : State) (q : Fin 3) (t : QuantTable) : (s.setQuant q t).err = s.err := rfl
@[simp] theorem State.setQuant_werr (s : State) (q : Fin 3) (t : QuantTable) : (s.setQuant q t).werr = s.werr := rfl
@[simp] theorem State.setQuant_errcode (s : State) (q : Fin 3) (t : QuantTable) : (s.setQuant q t).errcode = s.errcode := rfl
@[simp] theorem State.setQuant_cmd (s : State) (q : Fin 3) (t : QuantTable) : (s.setQuant q t).cmd = s.cmd := rfl
@[simp] theorem State.setQuant_result (s : State) (q : Fin 3) (t : QuantTable) : (s.setQuant q t).result = s.result := rfl
@[simp] theorem State.setQuant_errAddr (s : State) (q : Fin 3) (t : QuantTable) : (s.setQuant q t).errAddr = s.errAddr := rfl
@[simp] theorem State.setQuant_srcAddr (s : State) (q : Fin 3) (t : QuantTable) : (s.setQuant q t).srcAddr = s.srcAddr := rfl
@[simp] theorem State.setQuant_srcStride (s : State) (q : Fin 3) (t : QuantTable) : (s.setQuant q t).srcStride = s.srcStride := rfl
@[simp] theorem State.setQuant_dstAddr (s : State) (q : Fin 3) (t : QuantTable) : (s.setQuant q t).dstAddr = s.dstAddr := rfl
@[simp] theorem State.setQuant_dstStride (s : State) (q : Fin 3) (t : QuantTable) : (s.setQuant q t).dstStride = s.dstStride := rfl
@[simp] theorem State.setQuant_auxAddr (s : State) (q : Fin 3) (t : QuantTable) : (s.setQuant q t).auxAddr = s.auxAddr := rfl
@[simp] theorem State.setQuant_aux2Addr (s : State) (q : Fin 3) (t : QuantTable) : (s.setQuant q t).aux2Addr = s.aux2Addr := rfl
@[simp] theorem State.setQuant_auxStride (s : State) (q : Fin 3) (t : QuantTable) : (s.setQuant q t).auxStride = s.auxStride := rfl
@[simp] theorem State.setQuant_dim (s : State) (q : Fin 3) (t : QuantTable) : (s.setQuant q t).dim = s.dim := rfl
@[simp] theorem State.setQuant_bsAddr (s : State) (q : Fin 3) (t : QuantTable) : (s.setQuant q t).bsAddr = s.bsAddr := rfl
@[simp] theorem State.setQuant_bsEnd (s : State) (q : Fin 3) (t : QuantTable) : (s.setQuant q t).bsEnd = s.bsEnd := rfl
@[simp] theorem State.setQuant_bitbuf (s : State) (q : Fin 3) (t : QuantTable) : (s.setQuant q t).bitbuf = s.bitbuf := rfl
@[simp] theorem State.setQuant_bitcnt (s : State) (q : Fin 3) (t : QuantTable) : (s.setQuant q t).bitcnt = s.bitcnt := rfl
@[simp] theorem State.setQuant_pred (s : State) (q : Fin 3) (t : QuantTable) : (s.setQuant q t).pred = s.pred := rfl
@[simp] theorem State.setQuant_qv (s : State) (q : Fin 3) (t : QuantTable) : (s.setQuant q t).qv = s.qv.set q true := rfl
@[simp] theorem State.setQuant_qt (s : State) (q : Fin 3) (t : QuantTable) : (s.setQuant q t).qt = s.qt.set q t := rfl
@[simp] theorem State.setQuant_hv (s : State) (q : Fin 3) (t : QuantTable) : (s.setQuant q t).hv = s.hv := rfl
@[simp] theorem State.setQuant_ht (s : State) (q : Fin 3) (t : QuantTable) : (s.setQuant q t).ht = s.ht := rfl
@[simp] theorem State.setQuant_mem (s : State) (q : Fin 3) (t : QuantTable) : (s.setQuant q t).mem = s.mem := rfl
@[simp] theorem State.setQuant_turns (s : State) (q : Fin 3) (t : QuantTable) : (s.setQuant q t).turns = s.turns := rfl
@[simp] theorem State.setQuant_hostData (s : State) (q : Fin 3) (t : QuantTable) : (s.setQuant q t).hostData = s.hostData := rfl
@[simp] theorem State.setQuant_draws (s : State) (q : Fin 3) (t : QuantTable) : (s.setQuant q t).draws = s.draws := rfl

/-! ### `dropQuant` -/

@[simp] theorem State.dropQuant_cfg (s : State) (q : Fin 3) : (s.dropQuant q).cfg = s.cfg := rfl
@[simp] theorem State.dropQuant_doneIe (s : State) (q : Fin 3) : (s.dropQuant q).doneIe = s.doneIe := rfl
@[simp] theorem State.dropQuant_errIe (s : State) (q : Fin 3) : (s.dropQuant q).errIe = s.errIe := rfl
@[simp] theorem State.dropQuant_busy (s : State) (q : Fin 3) : (s.dropQuant q).busy = s.busy := rfl
@[simp] theorem State.dropQuant_done (s : State) (q : Fin 3) : (s.dropQuant q).done = s.done := rfl
@[simp] theorem State.dropQuant_err (s : State) (q : Fin 3) : (s.dropQuant q).err = s.err := rfl
@[simp] theorem State.dropQuant_werr (s : State) (q : Fin 3) : (s.dropQuant q).werr = s.werr := rfl
@[simp] theorem State.dropQuant_errcode (s : State) (q : Fin 3) : (s.dropQuant q).errcode = s.errcode := rfl
@[simp] theorem State.dropQuant_cmd (s : State) (q : Fin 3) : (s.dropQuant q).cmd = s.cmd := rfl
@[simp] theorem State.dropQuant_result (s : State) (q : Fin 3) : (s.dropQuant q).result = s.result := rfl
@[simp] theorem State.dropQuant_errAddr (s : State) (q : Fin 3) : (s.dropQuant q).errAddr = s.errAddr := rfl
@[simp] theorem State.dropQuant_srcAddr (s : State) (q : Fin 3) : (s.dropQuant q).srcAddr = s.srcAddr := rfl
@[simp] theorem State.dropQuant_srcStride (s : State) (q : Fin 3) : (s.dropQuant q).srcStride = s.srcStride := rfl
@[simp] theorem State.dropQuant_dstAddr (s : State) (q : Fin 3) : (s.dropQuant q).dstAddr = s.dstAddr := rfl
@[simp] theorem State.dropQuant_dstStride (s : State) (q : Fin 3) : (s.dropQuant q).dstStride = s.dstStride := rfl
@[simp] theorem State.dropQuant_auxAddr (s : State) (q : Fin 3) : (s.dropQuant q).auxAddr = s.auxAddr := rfl
@[simp] theorem State.dropQuant_aux2Addr (s : State) (q : Fin 3) : (s.dropQuant q).aux2Addr = s.aux2Addr := rfl
@[simp] theorem State.dropQuant_auxStride (s : State) (q : Fin 3) : (s.dropQuant q).auxStride = s.auxStride := rfl
@[simp] theorem State.dropQuant_dim (s : State) (q : Fin 3) : (s.dropQuant q).dim = s.dim := rfl
@[simp] theorem State.dropQuant_bsAddr (s : State) (q : Fin 3) : (s.dropQuant q).bsAddr = s.bsAddr := rfl
@[simp] theorem State.dropQuant_bsEnd (s : State) (q : Fin 3) : (s.dropQuant q).bsEnd = s.bsEnd := rfl
@[simp] theorem State.dropQuant_bitbuf (s : State) (q : Fin 3) : (s.dropQuant q).bitbuf = s.bitbuf := rfl
@[simp] theorem State.dropQuant_bitcnt (s : State) (q : Fin 3) : (s.dropQuant q).bitcnt = s.bitcnt := rfl
@[simp] theorem State.dropQuant_pred (s : State) (q : Fin 3) : (s.dropQuant q).pred = s.pred := rfl
@[simp] theorem State.dropQuant_qv (s : State) (q : Fin 3) : (s.dropQuant q).qv = s.qv.set q false := rfl
@[simp] theorem State.dropQuant_qt (s : State) (q : Fin 3) : (s.dropQuant q).qt = s.qt.set q (Config.freeQuant s.draws) := rfl
@[simp] theorem State.dropQuant_hv (s : State) (q : Fin 3) : (s.dropQuant q).hv = s.hv := rfl
@[simp] theorem State.dropQuant_ht (s : State) (q : Fin 3) : (s.dropQuant q).ht = s.ht := rfl
@[simp] theorem State.dropQuant_mem (s : State) (q : Fin 3) : (s.dropQuant q).mem = s.mem := rfl
@[simp] theorem State.dropQuant_turns (s : State) (q : Fin 3) : (s.dropQuant q).turns = s.turns := rfl
@[simp] theorem State.dropQuant_hostData (s : State) (q : Fin 3) : (s.dropQuant q).hostData = s.hostData := rfl
@[simp] theorem State.dropQuant_draws (s : State) (q : Fin 3) : (s.dropQuant q).draws = s.draws + 1 := rfl

/-! ### `setHuff` -/

@[simp] theorem State.setHuff_cfg (s : State) (h : Fin 4) (t : HuffTable) : (s.setHuff h t).cfg = s.cfg := rfl
@[simp] theorem State.setHuff_doneIe (s : State) (h : Fin 4) (t : HuffTable) : (s.setHuff h t).doneIe = s.doneIe := rfl
@[simp] theorem State.setHuff_errIe (s : State) (h : Fin 4) (t : HuffTable) : (s.setHuff h t).errIe = s.errIe := rfl
@[simp] theorem State.setHuff_busy (s : State) (h : Fin 4) (t : HuffTable) : (s.setHuff h t).busy = s.busy := rfl
@[simp] theorem State.setHuff_done (s : State) (h : Fin 4) (t : HuffTable) : (s.setHuff h t).done = s.done := rfl
@[simp] theorem State.setHuff_err (s : State) (h : Fin 4) (t : HuffTable) : (s.setHuff h t).err = s.err := rfl
@[simp] theorem State.setHuff_werr (s : State) (h : Fin 4) (t : HuffTable) : (s.setHuff h t).werr = s.werr := rfl
@[simp] theorem State.setHuff_errcode (s : State) (h : Fin 4) (t : HuffTable) : (s.setHuff h t).errcode = s.errcode := rfl
@[simp] theorem State.setHuff_cmd (s : State) (h : Fin 4) (t : HuffTable) : (s.setHuff h t).cmd = s.cmd := rfl
@[simp] theorem State.setHuff_result (s : State) (h : Fin 4) (t : HuffTable) : (s.setHuff h t).result = s.result := rfl
@[simp] theorem State.setHuff_errAddr (s : State) (h : Fin 4) (t : HuffTable) : (s.setHuff h t).errAddr = s.errAddr := rfl
@[simp] theorem State.setHuff_srcAddr (s : State) (h : Fin 4) (t : HuffTable) : (s.setHuff h t).srcAddr = s.srcAddr := rfl
@[simp] theorem State.setHuff_srcStride (s : State) (h : Fin 4) (t : HuffTable) : (s.setHuff h t).srcStride = s.srcStride := rfl
@[simp] theorem State.setHuff_dstAddr (s : State) (h : Fin 4) (t : HuffTable) : (s.setHuff h t).dstAddr = s.dstAddr := rfl
@[simp] theorem State.setHuff_dstStride (s : State) (h : Fin 4) (t : HuffTable) : (s.setHuff h t).dstStride = s.dstStride := rfl
@[simp] theorem State.setHuff_auxAddr (s : State) (h : Fin 4) (t : HuffTable) : (s.setHuff h t).auxAddr = s.auxAddr := rfl
@[simp] theorem State.setHuff_aux2Addr (s : State) (h : Fin 4) (t : HuffTable) : (s.setHuff h t).aux2Addr = s.aux2Addr := rfl
@[simp] theorem State.setHuff_auxStride (s : State) (h : Fin 4) (t : HuffTable) : (s.setHuff h t).auxStride = s.auxStride := rfl
@[simp] theorem State.setHuff_dim (s : State) (h : Fin 4) (t : HuffTable) : (s.setHuff h t).dim = s.dim := rfl
@[simp] theorem State.setHuff_bsAddr (s : State) (h : Fin 4) (t : HuffTable) : (s.setHuff h t).bsAddr = s.bsAddr := rfl
@[simp] theorem State.setHuff_bsEnd (s : State) (h : Fin 4) (t : HuffTable) : (s.setHuff h t).bsEnd = s.bsEnd := rfl
@[simp] theorem State.setHuff_bitbuf (s : State) (h : Fin 4) (t : HuffTable) : (s.setHuff h t).bitbuf = s.bitbuf := rfl
@[simp] theorem State.setHuff_bitcnt (s : State) (h : Fin 4) (t : HuffTable) : (s.setHuff h t).bitcnt = s.bitcnt := rfl
@[simp] theorem State.setHuff_pred (s : State) (h : Fin 4) (t : HuffTable) : (s.setHuff h t).pred = s.pred := rfl
@[simp] theorem State.setHuff_qv (s : State) (h : Fin 4) (t : HuffTable) : (s.setHuff h t).qv = s.qv := rfl
@[simp] theorem State.setHuff_qt (s : State) (h : Fin 4) (t : HuffTable) : (s.setHuff h t).qt = s.qt := rfl
@[simp] theorem State.setHuff_hv (s : State) (h : Fin 4) (t : HuffTable) : (s.setHuff h t).hv = s.hv.set h true := rfl
@[simp] theorem State.setHuff_ht (s : State) (h : Fin 4) (t : HuffTable) : (s.setHuff h t).ht = s.ht.set h t := rfl
@[simp] theorem State.setHuff_mem (s : State) (h : Fin 4) (t : HuffTable) : (s.setHuff h t).mem = s.mem := rfl
@[simp] theorem State.setHuff_turns (s : State) (h : Fin 4) (t : HuffTable) : (s.setHuff h t).turns = s.turns := rfl
@[simp] theorem State.setHuff_hostData (s : State) (h : Fin 4) (t : HuffTable) : (s.setHuff h t).hostData = s.hostData := rfl
@[simp] theorem State.setHuff_draws (s : State) (h : Fin 4) (t : HuffTable) : (s.setHuff h t).draws = s.draws := rfl

/-! ### `dropHuff` -/

@[simp] theorem State.dropHuff_cfg (s : State) (h : Fin 4) : (s.dropHuff h).cfg = s.cfg := rfl
@[simp] theorem State.dropHuff_doneIe (s : State) (h : Fin 4) : (s.dropHuff h).doneIe = s.doneIe := rfl
@[simp] theorem State.dropHuff_errIe (s : State) (h : Fin 4) : (s.dropHuff h).errIe = s.errIe := rfl
@[simp] theorem State.dropHuff_busy (s : State) (h : Fin 4) : (s.dropHuff h).busy = s.busy := rfl
@[simp] theorem State.dropHuff_done (s : State) (h : Fin 4) : (s.dropHuff h).done = s.done := rfl
@[simp] theorem State.dropHuff_err (s : State) (h : Fin 4) : (s.dropHuff h).err = s.err := rfl
@[simp] theorem State.dropHuff_werr (s : State) (h : Fin 4) : (s.dropHuff h).werr = s.werr := rfl
@[simp] theorem State.dropHuff_errcode (s : State) (h : Fin 4) : (s.dropHuff h).errcode = s.errcode := rfl
@[simp] theorem State.dropHuff_cmd (s : State) (h : Fin 4) : (s.dropHuff h).cmd = s.cmd := rfl
@[simp] theorem State.dropHuff_result (s : State) (h : Fin 4) : (s.dropHuff h).result = s.result := rfl
@[simp] theorem State.dropHuff_errAddr (s : State) (h : Fin 4) : (s.dropHuff h).errAddr = s.errAddr := rfl
@[simp] theorem State.dropHuff_srcAddr (s : State) (h : Fin 4) : (s.dropHuff h).srcAddr = s.srcAddr := rfl
@[simp] theorem State.dropHuff_srcStride (s : State) (h : Fin 4) : (s.dropHuff h).srcStride = s.srcStride := rfl
@[simp] theorem State.dropHuff_dstAddr (s : State) (h : Fin 4) : (s.dropHuff h).dstAddr = s.dstAddr := rfl
@[simp] theorem State.dropHuff_dstStride (s : State) (h : Fin 4) : (s.dropHuff h).dstStride = s.dstStride := rfl
@[simp] theorem State.dropHuff_auxAddr (s : State) (h : Fin 4) : (s.dropHuff h).auxAddr = s.auxAddr := rfl
@[simp] theorem State.dropHuff_aux2Addr (s : State) (h : Fin 4) : (s.dropHuff h).aux2Addr = s.aux2Addr := rfl
@[simp] theorem State.dropHuff_auxStride (s : State) (h : Fin 4) : (s.dropHuff h).auxStride = s.auxStride := rfl
@[simp] theorem State.dropHuff_dim (s : State) (h : Fin 4) : (s.dropHuff h).dim = s.dim := rfl
@[simp] theorem State.dropHuff_bsAddr (s : State) (h : Fin 4) : (s.dropHuff h).bsAddr = s.bsAddr := rfl
@[simp] theorem State.dropHuff_bsEnd (s : State) (h : Fin 4) : (s.dropHuff h).bsEnd = s.bsEnd := rfl
@[simp] theorem State.dropHuff_bitbuf (s : State) (h : Fin 4) : (s.dropHuff h).bitbuf = s.bitbuf := rfl
@[simp] theorem State.dropHuff_bitcnt (s : State) (h : Fin 4) : (s.dropHuff h).bitcnt = s.bitcnt := rfl
@[simp] theorem State.dropHuff_pred (s : State) (h : Fin 4) : (s.dropHuff h).pred = s.pred := rfl
@[simp] theorem State.dropHuff_qv (s : State) (h : Fin 4) : (s.dropHuff h).qv = s.qv := rfl
@[simp] theorem State.dropHuff_qt (s : State) (h : Fin 4) : (s.dropHuff h).qt = s.qt := rfl
@[simp] theorem State.dropHuff_hv (s : State) (h : Fin 4) : (s.dropHuff h).hv = s.hv.set h false := rfl
@[simp] theorem State.dropHuff_ht (s : State) (h : Fin 4) : (s.dropHuff h).ht = s.ht.set h (Config.freeHuff s.draws) := rfl
@[simp] theorem State.dropHuff_mem (s : State) (h : Fin 4) : (s.dropHuff h).mem = s.mem := rfl
@[simp] theorem State.dropHuff_turns (s : State) (h : Fin 4) : (s.dropHuff h).turns = s.turns := rfl
@[simp] theorem State.dropHuff_hostData (s : State) (h : Fin 4) : (s.dropHuff h).hostData = s.hostData := rfl
@[simp] theorem State.dropHuff_draws (s : State) (h : Fin 4) : (s.dropHuff h).draws = s.draws + 1 := rfl

/-! ### `drawEntropy` -/

@[simp] theorem State.drawEntropy_cfg (s : State) (c : Fin 3) : (s.drawEntropy c).cfg = s.cfg := rfl
@[simp] theorem State.drawEntropy_doneIe (s : State) (c : Fin 3) : (s.drawEntropy c).doneIe = s.doneIe := rfl
@[simp] theorem State.drawEntropy_errIe (s : State) (c : Fin 3) : (s.drawEntropy c).errIe = s.errIe := rfl
@[simp] theorem State.drawEntropy_busy (s : State) (c : Fin 3) : (s.drawEntropy c).busy = s.busy := rfl
@[simp] theorem State.drawEntropy_done (s : State) (c : Fin 3) : (s.drawEntropy c).done = s.done := rfl
@[simp] theorem State.drawEntropy_err (s : State) (c : Fin 3) : (s.drawEntropy c).err = s.err := rfl
@[simp] theorem State.drawEntropy_werr (s : State) (c : Fin 3) : (s.drawEntropy c).werr = s.werr := rfl
@[simp] theorem State.drawEntropy_errcode (s : State) (c : Fin 3) : (s.drawEntropy c).errcode = s.errcode := rfl
@[simp] theorem State.drawEntropy_cmd (s : State) (c : Fin 3) : (s.drawEntropy c).cmd = s.cmd := rfl
@[simp] theorem State.drawEntropy_result (s : State) (c : Fin 3) : (s.drawEntropy c).result = s.result := rfl
@[simp] theorem State.drawEntropy_errAddr (s : State) (c : Fin 3) : (s.drawEntropy c).errAddr = s.errAddr := rfl
@[simp] theorem State.drawEntropy_srcAddr (s : State) (c : Fin 3) : (s.drawEntropy c).srcAddr = s.srcAddr := rfl
@[simp] theorem State.drawEntropy_srcStride (s : State) (c : Fin 3) : (s.drawEntropy c).srcStride = s.srcStride := rfl
@[simp] theorem State.drawEntropy_dstAddr (s : State) (c : Fin 3) : (s.drawEntropy c).dstAddr = s.dstAddr := rfl
@[simp] theorem State.drawEntropy_dstStride (s : State) (c : Fin 3) : (s.drawEntropy c).dstStride = s.dstStride := rfl
@[simp] theorem State.drawEntropy_auxAddr (s : State) (c : Fin 3) : (s.drawEntropy c).auxAddr = s.auxAddr := rfl
@[simp] theorem State.drawEntropy_aux2Addr (s : State) (c : Fin 3) : (s.drawEntropy c).aux2Addr = s.aux2Addr := rfl
@[simp] theorem State.drawEntropy_auxStride (s : State) (c : Fin 3) : (s.drawEntropy c).auxStride = s.auxStride := rfl
@[simp] theorem State.drawEntropy_dim (s : State) (c : Fin 3) : (s.drawEntropy c).dim = s.dim := rfl
@[simp] theorem State.drawEntropy_bsAddr (s : State) (c : Fin 3) : (s.drawEntropy c).bsAddr = Config.freeWord s.draws := rfl
@[simp] theorem State.drawEntropy_bsEnd (s : State) (c : Fin 3) : (s.drawEntropy c).bsEnd = s.bsEnd := rfl
@[simp] theorem State.drawEntropy_bitbuf (s : State) (c : Fin 3) : (s.drawEntropy c).bitbuf = Config.freeByte s.draws := rfl
@[simp] theorem State.drawEntropy_bitcnt (s : State) (c : Fin 3) : (s.drawEntropy c).bitcnt = (Config.freeBitCount s.draws).val := rfl
@[simp] theorem State.drawEntropy_pred (s : State) (c : Fin 3) : (s.drawEntropy c).pred = s.pred.set c (Config.freeHalf s.draws) := rfl
@[simp] theorem State.drawEntropy_qv (s : State) (c : Fin 3) : (s.drawEntropy c).qv = s.qv := rfl
@[simp] theorem State.drawEntropy_qt (s : State) (c : Fin 3) : (s.drawEntropy c).qt = s.qt := rfl
@[simp] theorem State.drawEntropy_hv (s : State) (c : Fin 3) : (s.drawEntropy c).hv = s.hv := rfl
@[simp] theorem State.drawEntropy_ht (s : State) (c : Fin 3) : (s.drawEntropy c).ht = s.ht := rfl
@[simp] theorem State.drawEntropy_mem (s : State) (c : Fin 3) : (s.drawEntropy c).mem = s.mem := rfl
@[simp] theorem State.drawEntropy_turns (s : State) (c : Fin 3) : (s.drawEntropy c).turns = s.turns := rfl
@[simp] theorem State.drawEntropy_hostData (s : State) (c : Fin 3) : (s.drawEntropy c).hostData = s.hostData := rfl
@[simp] theorem State.drawEntropy_draws (s : State) (c : Fin 3) : (s.drawEntropy c).draws = s.draws + 1 := rfl

/-! ### `resetRegisters` -/

@[simp] theorem State.resetRegisters_cfg (s : State) : (s.resetRegisters).cfg = s.cfg := rfl
@[simp] theorem State.resetRegisters_doneIe (s : State) : (s.resetRegisters).doneIe = State.reset.doneIe := rfl
@[simp] theorem State.resetRegisters_errIe (s : State) : (s.resetRegisters).errIe = State.reset.errIe := rfl
@[simp] theorem State.resetRegisters_busy (s : State) : (s.resetRegisters).busy = State.reset.busy := rfl
@[simp] theorem State.resetRegisters_done (s : State) : (s.resetRegisters).done = State.reset.done := rfl
@[simp] theorem State.resetRegisters_err (s : State) : (s.resetRegisters).err = State.reset.err := rfl
@[simp] theorem State.resetRegisters_werr (s : State) : (s.resetRegisters).werr = State.reset.werr := rfl
@[simp] theorem State.resetRegisters_errcode (s : State) : (s.resetRegisters).errcode = State.reset.errcode := rfl
@[simp] theorem State.resetRegisters_cmd (s : State) : (s.resetRegisters).cmd = State.reset.cmd := rfl
@[simp] theorem State.resetRegisters_result (s : State) : (s.resetRegisters).result = State.reset.result := rfl
@[simp] theorem State.resetRegisters_errAddr (s : State) : (s.resetRegisters).errAddr = State.reset.errAddr := rfl
@[simp] theorem State.resetRegisters_srcAddr (s : State) : (s.resetRegisters).srcAddr = State.reset.srcAddr := rfl
@[simp] theorem State.resetRegisters_srcStride (s : State) : (s.resetRegisters).srcStride = State.reset.srcStride := rfl
@[simp] theorem State.resetRegisters_dstAddr (s : State) : (s.resetRegisters).dstAddr = State.reset.dstAddr := rfl
@[simp] theorem State.resetRegisters_dstStride (s : State) : (s.resetRegisters).dstStride = State.reset.dstStride := rfl
@[simp] theorem State.resetRegisters_auxAddr (s : State) : (s.resetRegisters).auxAddr = State.reset.auxAddr := rfl
@[simp] theorem State.resetRegisters_aux2Addr (s : State) : (s.resetRegisters).aux2Addr = State.reset.aux2Addr := rfl
@[simp] theorem State.resetRegisters_auxStride (s : State) : (s.resetRegisters).auxStride = State.reset.auxStride := rfl
@[simp] theorem State.resetRegisters_dim (s : State) : (s.resetRegisters).dim = State.reset.dim := rfl
@[simp] theorem State.resetRegisters_bsAddr (s : State) : (s.resetRegisters).bsAddr = State.reset.bsAddr := rfl
@[simp] theorem State.resetRegisters_bsEnd (s : State) : (s.resetRegisters).bsEnd = State.reset.bsEnd := rfl
@[simp] theorem State.resetRegisters_bitbuf (s : State) : (s.resetRegisters).bitbuf = State.reset.bitbuf := rfl
@[simp] theorem State.resetRegisters_bitcnt (s : State) : (s.resetRegisters).bitcnt = State.reset.bitcnt := rfl
@[simp] theorem State.resetRegisters_pred (s : State) : (s.resetRegisters).pred = State.reset.pred := rfl
@[simp] theorem State.resetRegisters_qv (s : State) : (s.resetRegisters).qv = State.reset.qv := rfl
@[simp] theorem State.resetRegisters_qt (s : State) : (s.resetRegisters).qt =
    Vector.ofFn fun q => Config.freeQuant (s.draws + q.val) := rfl
@[simp] theorem State.resetRegisters_hv (s : State) : (s.resetRegisters).hv = State.reset.hv := rfl
@[simp] theorem State.resetRegisters_ht (s : State) : (s.resetRegisters).ht =
    Vector.ofFn fun h => Config.freeHuff (s.draws + h.val) := rfl
@[simp] theorem State.resetRegisters_mem (s : State) : (s.resetRegisters).mem = s.mem := rfl
@[simp] theorem State.resetRegisters_turns (s : State) : (s.resetRegisters).turns = s.turns := rfl
@[simp] theorem State.resetRegisters_hostData (s : State) : (s.resetRegisters).hostData = s.hostData := rfl
@[simp] theorem State.resetRegisters_draws (s : State) : (s.resetRegisters).draws = s.draws + 4 := rfl

end Sys2Proof.Machine
end

