-- ==== Sys2Proof/Laws/Memory.lean ====
section
/-! SUPPORT. The laws of system memory: the canonical form is kept by every memory operation, a read after a write gives
the value written, and a write leaves every other byte alone. -/

namespace Sys2Proof.Machine

/-! ### One byte -/

@[simp] theorem Memory.readByte_nil (a : Nat) : Memory.readByte [] a = unlistedByte := rfl

theorem Memory.readByte_cons (k : Nat) (b : Byte) (m : Memory) (a : Nat) :
    Memory.readByte ((k, b) :: m) a = if a = k then b else Memory.readByte m a := rfl

theorem Memory.risingFrom_cons (lo k : Nat) (b : Byte) (m : Memory) :
    Memory.risingFrom lo ((k, b) :: m) = true ↔
      lo ≤ k ∧ k < 2 ^ 32 ∧ b ≠ unlistedByte ∧ Memory.risingFrom (k + 1) m = true := by
  simp [Memory.risingFrom, and_assoc]

theorem Memory.risingFrom_mono {lo lo' : Nat} {m : Memory} (h : lo' ≤ lo) (hm : Memory.risingFrom lo m = true) :
    Memory.risingFrom lo' m = true := by
  cases m with
  | nil => rfl
  | cons c m =>
    rw [Memory.risingFrom_cons] at hm ⊢
    exact ⟨h.trans hm.1, hm.2⟩

/-- Below the first listed address every byte is unlisted. -/
theorem Memory.readByte_below {lo a : Nat} {m : Memory} (hm : Memory.risingFrom lo m = true) (ha : a < lo) :
    Memory.readByte m a = unlistedByte := by
  induction m generalizing lo with
  | nil => rfl
  | cons c m ih =>
    rw [Memory.risingFrom_cons] at hm
    rw [Memory.readByte_cons, if_neg (by omega)]
    exact ih hm.2.2.2 (by omega)

/-- A write leaves every other byte alone. -/
theorem Memory.readByte_writeByte_ne {m : Memory} {a b : Nat} (v : Byte) (h : b ≠ a) :
    Memory.readByte (Memory.writeByte m a v) b = Memory.readByte m b := by
  induction m with
  | nil => simp only [Memory.writeByte]; split <;> simp [Memory.readByte, h]
  | cons c m ih =>
    simp only [Memory.writeByte]
    split
    · split
      · rfl
      · rw [Memory.readByte_cons, if_neg h]
    · obtain ⟨k, w⟩ := c
      split
      · rename_i hk
        simp only [Memory.readByte_cons]
        rw [if_neg (show b ≠ k from fun e => h (e.trans hk.symm))]
        split
        · rfl
        · rw [Memory.readByte_cons, if_neg h]
      · simp only [Memory.readByte_cons, ih]

/-- A read after a write to the same byte gives the value written, in canonical memory. -/
theorem Memory.readByte_writeByte_same {lo : Nat} {m : Memory} {a : Nat} (v : Byte) (hm : Memory.risingFrom lo m = true) :
    Memory.readByte (Memory.writeByte m a v) a = v := by
  induction m generalizing lo with
  | nil => simp only [Memory.writeByte]; split <;> simp_all [Memory.readByte]
  | cons c m ih =>
    rw [Memory.risingFrom_cons] at hm
    obtain ⟨_, _, _, hm⟩ := hm
    simp only [Memory.writeByte]
    split
    · split
      · subst_vars
        rw [Memory.readByte_cons, if_neg (by omega)]
        exact Memory.readByte_below hm (by omega)
      · rw [Memory.readByte_cons, if_pos rfl]
    · split
      · subst_vars
        split
        · subst_vars
          exact Memory.readByte_below hm (by omega)
        · rw [Memory.readByte_cons, if_pos rfl]
      · rw [Memory.readByte_cons, if_neg (by omega)]
        exact ih hm

/-- A write keeps the canonical form. -/
theorem Memory.risingFrom_writeByte {lo : Nat} {m : Memory} {a : Nat} (v : Byte) (hm : Memory.risingFrom lo m = true)
    (ha : a < 2 ^ 32) (hlo : lo ≤ a) : Memory.risingFrom lo (Memory.writeByte m a v) = true := by
  induction m generalizing lo with
  | nil =>
    simp only [Memory.writeByte]
    split
    · rfl
    · rw [Memory.risingFrom_cons]
      exact ⟨hlo, ha, ‹_›, rfl⟩
  | cons c m ih =>
    have hm' := hm
    rw [Memory.risingFrom_cons] at hm
    obtain ⟨h1, h2, h3, h4⟩ := hm
    simp only [Memory.writeByte]
    split
    · split
      · exact hm'
      · rw [Memory.risingFrom_cons, Memory.risingFrom_cons]
        exact ⟨hlo, ha, ‹_›, by omega, h2, h3, h4⟩
    · split
      · subst_vars
        split
        · exact Memory.risingFrom_mono (by omega) h4
        · rw [Memory.risingFrom_cons]
          exact ⟨hlo, ha, ‹_›, h4⟩
      · rw [Memory.risingFrom_cons]
        exact ⟨h1, h2, h3, ih h4 (by omega)⟩

theorem Memory.wf_nil : Memory.wf [] = true := rfl

theorem Memory.wf_writeByte {m : Memory} (a : Word) (v : Byte) (hm : Memory.wf m = true) :
    Memory.wf (Memory.writeByte m a.toNat v) = true :=
  Memory.risingFrom_writeByte v hm a.isLt (Nat.zero_le _)

/-! ### Elements of several bytes -/

theorem Memory.wf_store {m : Memory} (n : Nat) (a : Word) (v : Nat) (hm : Memory.wf m = true) :
    Memory.wf (Memory.store m n a v) = true := by
  induction n generalizing m a v with
  | zero => exact hm
  | succ n ih => exact ih _ _ (Memory.wf_writeByte a _ hm)

/-- A store leaves every byte outside its own alone. -/
theorem Memory.readByte_store_of_not_mem {m : Memory} {n : Nat} {a b : Word} (v : Nat) (h : b ∉ bytesFrom a n) :
    Memory.readByte (Memory.store m n a v) b.toNat = Memory.readByte m b.toNat := by
  induction n generalizing m a v with
  | zero => rfl
  | succ n ih =>
    simp only [bytesFrom, List.mem_cons, not_or] at h
    rw [Memory.store, ih _ h.2, Memory.readByte_writeByte_ne]
    exact fun e => h.1 (BitVec.eq_of_toNat_eq e)

theorem mem_bytesFrom {a b : Word} {n : Nat} (hn : n ≤ 2 ^ 32) : b ∈ bytesFrom a n ↔ (b - a).toNat < n := by
  induction n generalizing a with
  | zero => simp [bytesFrom]
  | succ n ih =>
    rw [bytesFrom, List.mem_cons, ih (by omega)]
    constructor
    · rintro (rfl | h)
      · simp
      · bv_omega
    · intro h
      by_cases e : b = a
      · exact Or.inl e
      · right
        have : b - a ≠ 0#32 := fun e' => e (by bv_omega)
        bv_omega

/-- A load from bytes two memories agree on gives the same number. -/
theorem Memory.load_congr {m m' : Memory} {n : Nat} {a : Word}
    (h : ∀ b ∈ bytesFrom a n, Memory.readByte m b.toNat = Memory.readByte m' b.toNat) :
    Memory.load m n a = Memory.load m' n a := by
  induction n generalizing a with
  | zero => rfl
  | succ n ih =>
    simp only [bytesFrom, List.mem_cons, forall_eq_or_imp] at h
    rw [Memory.load, Memory.load, h.1, ih h.2]

/-- A load of the element just stored gives the low `8·n` bits of the value, in canonical memory. -/
theorem Memory.load_store_same {m : Memory} {n : Nat} (a : Word) (v : Nat) (hn : n ≤ 2 ^ 32) (hm : Memory.wf m = true) :
    Memory.load (Memory.store m n a v) n a = v % 256 ^ n := by
  induction n generalizing m a v with
  | zero => simp [Memory.load, Nat.mod_one]
  | succ n ih =>
    have hself : a ∉ bytesFrom (a + 1#32) n := by
      rw [mem_bytesFrom (by omega)]
      bv_omega
    rw [Memory.load, Memory.store, Memory.readByte_store_of_not_mem _ hself,
      Memory.readByte_writeByte_same _ hm, ih _ _ (by omega) (Memory.wf_writeByte a _ hm), BitVec.toNat_ofNat,
      show 256 ^ (n + 1) = 256 * 256 ^ n from pow_succ' 256 n, Nat.mod_mul]

theorem Memory.load_lt (m : Memory) (n : Nat) (a : Word) : Memory.load m n a < 256 ^ n := by
  induction n generalizing a with
  | zero => simp [Memory.load]
  | succ n ih =>
    have h1 := (Memory.readByte m a.toNat).isLt
    have h2 := ih (a + 1#32)
    rw [Memory.load, pow_succ]
    omega

/-! ### The operations that write many elements -/

theorem wf_runPixels {ps : List Pixel} {m : Memory} (hm : Memory.wf m = true) : Memory.wf (runPixels ps m) = true := by
  induction ps generalizing m with
  | nil => exact hm
  | cons p ps ih => exact ih (Memory.wf_store _ _ _ hm)

theorem wf_storeHalves {vs : List Half} {a : Word} {m : Memory} (hm : Memory.wf m = true) :
    Memory.wf (storeHalves vs a m) = true := by
  induction vs generalizing a m with
  | nil => exact hm
  | cons v vs ih => exact ih (Memory.wf_store _ _ _ hm)

theorem wf_storeSamples {s : State} {f : Nat × Nat → Int} {rcs : List (Nat × Nat)} {m : Memory}
    (hm : Memory.wf m = true) : Memory.wf (storeSamples s f rcs m) = true := by
  induction rcs generalizing m with
  | nil => exact hm
  | cons rc rcs ih => exact ih (Memory.wf_store _ _ _ hm)

theorem wf_idctMem {s : State} {q : Fin 3} {l r : Bool} (hm : Memory.wf s.mem = true) :
    Memory.wf (idctMem s q l r) = true := wf_storeSamples hm

theorem wf_drawBytes {ws : List Word} {s : State} (hm : Memory.wf s.mem = true) :
    Memory.wf (State.drawBytes ws s).mem = true := by
  induction ws generalizing s with
  | nil => exact hm
  | cons a ws ih => exact ih (Memory.wf_writeByte a _ hm)

theorem wf_drawWrites {plan : List Access} {s : State} (hm : Memory.wf s.mem = true) :
    Memory.wf (s.drawWrites plan).mem = true := wf_drawBytes hm

/-- Drawing free bytes leaves every other byte alone. -/
theorem readByte_drawBytes_of_not_mem {ws : List Word} {s : State} {b : Word} (h : b ∉ ws) :
    Memory.readByte (State.drawBytes ws s).mem b.toNat = Memory.readByte s.mem b.toNat := by
  induction ws generalizing s with
  | nil => rfl
  | cons a ws ih =>
    simp only [List.mem_cons, not_or] at h
    rw [State.drawBytes, ih h.2]
    exact Memory.readByte_writeByte_ne _ fun e => h.1 (BitVec.eq_of_toNat_eq e)

/-- Pixel steps leave every byte outside their destinations alone. -/
theorem readByte_runPixels_of_not_mem {ps : List Pixel} {m : Memory} {b : Word}
    (h : ∀ p ∈ ps, b ∉ bytesFrom p.dst p.size) :
    Memory.readByte (runPixels ps m) b.toNat = Memory.readByte m b.toNat := by
  induction ps generalizing m with
  | nil => rfl
  | cons p ps ih =>
    simp only [List.mem_cons, forall_eq_or_imp] at h
    rw [runPixels, ih h.2, Memory.readByte_store_of_not_mem _ h.1]

end Sys2Proof.Machine
end

