-- ==== Sys2Proof/Laws/Ops.lean ====
section
/-! SUPPORT. One lemma for each shared operation that says everything it can do, for later proofs to cite instead of
unfolding it. -/

namespace Sys2Proof.Machine

/-! ### Outcomes -/

theorem stopWith_next {e : Stop} {s t : State} (h : stopWith e s = .next t) :
    ∃ code a, e = .error code a ∧ t = s.raise code a := by
  cases e with
  | error code a => exact ⟨code, a, rfl, by simpa [stopWith] using h.symm⟩
  | sideEffect a => simp [stopWith] at h

/-- After the prologue: the body's answer, a zero area's completion, or the check's raise. -/
theorem afterPrologue_next {p : Prologue} {s t : State} {body : Answer} (h : afterPrologue p s body = .next t) :
    (p = .pass ∧ body = .next t) ∨ (p = .zeroArea ∧ t = s.complete 0#32) ∨
    ∃ code a, p = .error code a ∧ t = s.raise code a := by
  cases p with
  | pass => exact .inl ⟨rfl, h⟩
  | zeroArea => exact .inr (.inl ⟨rfl, by simpa [afterPrologue] using h.symm⟩)
  | error code a => exact .inr (.inr ⟨code, a, rfl, by simpa [afterPrologue] using h.symm⟩)

@[simp] theorem afterPrologue_pass (s : State) (body : Answer) : afterPrologue .pass s body = body := rfl

@[simp] theorem afterPrologue_zeroArea (s : State) (body : Answer) :
    afterPrologue .zeroArea s body = .next (s.complete 0#32) := rfl

@[simp] theorem afterPrologue_error (s : State) (c : ErrCode) (a : Word) (body : Answer) :
    afterPrologue (.error c a) s body = .next (s.raise c a) := rfl

/-! ### Access lists -/

/-- Every access is performed exactly when the platform answers each normally. -/
theorem survey_complete {c : Config} {xs : List Access} (h : ∀ x ∈ xs, respond c x.addr x.size = .normal) :
    survey c xs = (xs, none) := by
  induction xs with
  | nil => rfl
  | cons x xs ih =>
    simp only [List.mem_cons, forall_eq_or_imp] at h
    simp [survey, h.1, ih h.2]

/-- Accesses that the platform answers are performed, and the survey goes on with the rest. -/
theorem survey_append {c : Config} {xs ys : List Access} (h : ∀ x ∈ xs, respond c x.addr x.size = .normal) :
    survey c (xs ++ ys) = (xs ++ (survey c ys).1, (survey c ys).2) := by
  induction xs with
  | nil => rfl
  | cons x xs ih =>
    simp only [List.mem_cons, forall_eq_or_imp] at h
    simp [survey, h.1, ih h.2]

/-- A survey stops only at an access of the list, with BUS there or at memory with side effects. -/
theorem survey_stop {c : Config} {xs : List Access} {e : Stop} (h : (survey c xs).2 = some e) :
    ∃ x ∈ xs, (respond c x.addr x.size = .busError ∧ e = .error .bus x.addr) ∨
      (respond c x.addr x.size = .sideEffects ∧ e = .sideEffect x.addr) := by
  induction xs with
  | nil => simp [survey] at h
  | cons x xs ih =>
    rw [survey] at h
    split at h
    · obtain ⟨y, hy, h'⟩ := ih h
      exact ⟨y, List.mem_cons_of_mem _ hy, h'⟩
    · exact ⟨x, List.mem_cons_self, .inl ⟨‹_›, by simpa using h.symm⟩⟩
    · exact ⟨x, List.mem_cons_self, .inr ⟨‹_›, by simpa using h.symm⟩⟩

/-- A body over an access list: it finishes, or it raises BUS at one of its accesses. -/
theorem perform_next {s finished stopped t : State} {before plan : List Access}
    (h : perform s before plan finished stopped = .next t) :
    ((survey s.cfg plan).2 = none ∧ t = finished) ∨
    ∃ x ∈ plan, respond s.cfg x.addr x.size = .busError ∧ t = stopped.raise .bus x.addr := by
  unfold perform at h
  split at h
  · cases h
  · split at h
    · exact .inl ⟨‹_›, by simpa using h.symm⟩
    · rename_i e he
      obtain ⟨code, a, rfl, rfl⟩ := stopWith_next h
      obtain ⟨x, hx, ⟨hr, he'⟩ | ⟨_, he'⟩⟩ := survey_stop he
      · cases he'
        exact .inr ⟨x, hx, hr, rfl⟩
      · cases he'

/-- A body whose accesses are all answered and do not overlap finishes. -/
theorem perform_finishes {s finished stopped : State} {before plan : List Access}
    (hok : ∀ x ∈ plan, respond s.cfg x.addr x.size = .normal) (hd : overlapping (before ++ plan) = false) :
    perform s before plan finished stopped = .next finished := by
  simp [perform, survey_complete hok, hd]

/-- A body that comes to an access the platform does not answer normally, with no overlap before it, raises BUS there or
meets memory with side effects. -/
theorem perform_stops {s finished stopped : State} {before done rest : List Access} {x : Access}
    (hok : ∀ y ∈ done, respond s.cfg y.addr y.size = .normal) (hd : overlapping (before ++ done) = false) :
    (respond s.cfg x.addr x.size = .busError →
      perform s before (done ++ x :: rest) finished stopped = .next (stopped.raise .bus x.addr)) ∧
    (respond s.cfg x.addr x.size = .sideEffects →
      perform s before (done ++ x :: rest) finished stopped = .fault .hazardSideEffect) := by
  constructor <;> intro hx <;> simp [perform, survey_append hok, survey, hx, hd, stopWith]

/-- A fetch answers the byte in memory where the platform answers normally, and stops there otherwise. -/
theorem fetch_cases (s : State) (a : Word) :
    (respond s.cfg a 1 = .normal ∧ fetch s a = .ok (Memory.readByte s.mem a.toNat)) ∨
    (respond s.cfg a 1 = .busError ∧ fetch s a = .error (.error .bus a)) ∨
    (respond s.cfg a 1 = .sideEffects ∧ fetch s a = .error (.sideEffect a)) := by
  unfold fetch
  cases respond s.cfg a 1 <;> simp

/-! ### Rectangles -/

/-- A rectangle command: a prologue outcome, all its pixel steps, or BUS at one of its accesses. -/
theorem execRect_next {s t : State} {p : Prologue} {ps : List Pixel} (h : execRect s p ps = .next t) :
    (p = .zeroArea ∧ t = s.complete 0#32) ∨ (∃ code a, p = .error code a ∧ t = s.raise code a) ∨
    (p = .pass ∧ t = (s.setMem (runPixels ps s.mem)).complete 0#32) ∨
    (p = .pass ∧ ∃ a, t = (s.drawWrites (rectPlan ps)).raise .bus a) := by
  obtain ⟨hp, hb⟩ | h | h := afterPrologue_next h
  · obtain ⟨_, rfl⟩ | ⟨x, _, _, rfl⟩ := perform_next hb
    · exact .inr (.inr (.inl ⟨hp, rfl⟩))
    · exact .inr (.inr (.inr ⟨hp, x.addr, rfl⟩))
  · exact .inl h
  · exact .inr (.inl h)

/-! ### Free values -/

/-- Drawing free bytes changes memory and the draw counter, nothing else. -/
theorem drawBytes_frame (ws : List Word) (s : State) :
    ∃ m n, State.drawBytes ws s = { s with mem := m, draws := n } := by
  induction ws generalizing s with
  | nil => exact ⟨s.mem, s.draws, rfl⟩
  | cons a ws ih =>
    obtain ⟨m, n, h⟩ := ih
      { s with mem := Memory.writeByte s.mem a.toNat (Config.freeByte s.draws), draws := s.draws + 1 }
    exact ⟨m, n, h⟩

theorem drawWrites_frame (plan : List Access) (s : State) :
    ∃ m n, s.drawWrites plan = { s with mem := m, draws := n } := drawBytes_frame _ s

/-! ### Reading -/

theorem Reading.bind_got {α β : Type} {x : Reading α} {f : α → Reader → Reading β} {b : β} {r : Reader}
    (h : x.bind f = .got b r) : ∃ a r', x = .got a r' ∧ f a r' = .got b r := by
  cases x with
  | got a r' => exact ⟨a, r', rfl, h⟩
  | stop why seen => simp [Reading.bind] at h

theorem Reading.bind_stop {α β : Type} {x : Reading α} {f : α → Reader → Reading β} {e : Stop} {seen : List Access}
    (h : x.bind f = .stop e seen) : x = .stop e seen ∨ ∃ a r', x = .got a r' ∧ f a r' = .stop e seen := by
  cases x with
  | got a r' => exact .inr ⟨a, r', rfl, h⟩
  | stop why seen' => exact .inl (by simpa [Reading.bind] using h)

@[simp] theorem Reading.got_bind {α β : Type} (a : α) (r : Reader) (f : α → Reader → Reading β) :
    (Reading.got a r).bind f = f a r := rfl

@[simp] theorem Reading.stop_bind {α β : Type} (e : Stop) (seen : List Access) (f : α → Reader → Reading β) :
    (Reading.stop e seen : Reading α).bind f = .stop e seen := rfl

/-- `FetchByte` leaves the buffer and its count alone. -/
theorem fetchByte_got {s : State} {r r' : Reader} {b : Byte} (h : fetchByte s r = .got b r') :
    r'.buf = r.buf ∧ r'.cnt = r.cnt := by
  unfold fetchByte at h
  simp only at h
  split at h
  · cases h
  obtain ⟨b1, r1, h1, h⟩ := Reading.bind_got h
  have e1 : r1 = r.saw r.addr := by
    unfold readEntropy at h1
    split at h1 <;> cases h1
    rfl
  subst e1
  split at h
  · split at h
    · cases h
    · obtain ⟨b2, r2, h2, h⟩ := Reading.bind_got h
      have e2 : r2 = (r.saw r.addr).saw (r.addr + 1#32) := by
        unfold readEntropy at h2
        split at h2 <;> cases h2
        rfl
      subst e2
      split at h <;> cases h
      exact ⟨rfl, rfl⟩
  · cases h
    exact ⟨rfl, rfl⟩

/-- `NextBit` keeps the bit count in its range (10_state R58). -/
theorem nextBit_cnt {s : State} {r r' : Reader} {b : Bool} (h : nextBit s r = .got b r') (hr : r.cnt ≤ 8) :
    r'.cnt ≤ 8 := by
  unfold nextBit at h
  split at h
  · obtain ⟨b1, r1, _, h⟩ := Reading.bind_got h
    simp only [takeBit, Reading.got.injEq] at h
    rw [← h.2]
    simp
  · simp only [takeBit, Reading.got.injEq] at h
    rw [← h.2]
    simp only
    omega

theorem receiveFrom_cnt {s : State} {n v w : Nat} {r r' : Reader} (h : receiveFrom s n v r = .got w r') (hr : r.cnt ≤ 8) :
    r'.cnt ≤ 8 := by
  induction n generalizing v r with
  | zero => simp only [receiveFrom, Reading.got.injEq] at h; rwa [← h.2]
  | succ n ih =>
    obtain ⟨b, r1, h1, h⟩ := Reading.bind_got h
    exact ih h (nextBit_cnt h1 hr)

theorem huffFrom_cnt {s : State} {values : List Byte} {rows : List CodeRow} {code : Nat} {r r' : Reader} {b : Byte}
    (h : huffFrom s values rows code r = .got b r') (hr : r.cnt ≤ 8) : r'.cnt ≤ 8 := by
  induction rows generalizing code r with
  | nil => cases h
  | cons row rows ih =>
    obtain ⟨bit, r1, h1, h⟩ := Reading.bind_got h
    have hr1 := nextBit_cnt h1 hr
    simp only at h
    split at h
    · simp only [Reading.got.injEq] at h; rwa [← h.2]
    · exact ih h hr1

theorem decodeDc_cnt {s : State} {slot : Fin 4} {r r' : Reader} {d : Int} (h : decodeDc s slot r = .got d r')
    (hr : r.cnt ≤ 8) : r'.cnt ≤ 8 := by
  obtain ⟨t, r1, h1, h⟩ := Reading.bind_got h
  have hr1 := huffFrom_cnt h1 hr
  split at h
  · cases h
  · obtain ⟨v, r2, h2, h⟩ := Reading.bind_got h
    simp only [Reading.got.injEq] at h
    rw [← h.2]
    exact receiveFrom_cnt h2 hr1

theorem decodeAc_cnt {s : State} {slot : Fin 4} {fuel : Nat} {b b' : Block} {r r' : Reader}
    (h : decodeAc s slot fuel b r = .got b' r') (hr : r.cnt ≤ 8) : r'.cnt ≤ 8 := by
  induction fuel generalizing b r with
  | zero => simp only [decodeAc, Reading.got.injEq] at h; rwa [← h.2]
  | succ fuel ih =>
    rw [decodeAc] at h
    split at h
    · simp only [Reading.got.injEq] at h; rwa [← h.2]
    · obtain ⟨rs, r1, h1, h⟩ := Reading.bind_got h
      have hr1 := huffFrom_cnt h1 hr
      split at h
      · simp only [Reading.got.injEq] at h; rwa [← h.2]
      · simp only at h
        split at h
        · cases h
        · split at h
          · cases h
          · obtain ⟨v, r2, h2, h⟩ := Reading.bind_got h
            exact ih h (receiveFrom_cnt h2 hr1)

/-- A decoded block leaves a bit count in its range. -/
theorem decodeCoeffs_cnt {s : State} {c : Fin 3} {dc ac : Fin 4} {b : Block} {r : Reader}
    (h : decodeCoeffs s c dc ac = .got b r) (hs : s.bitcnt ≤ 8) : r.cnt ≤ 8 := by
  obtain ⟨d, r1, h1, h⟩ := Reading.bind_got h
  exact decodeAc_cnt h (decodeDc_cnt h1 hs)

/-! ### Hosts and turns -/

/-- A host write answers next by a register write, or by a store outside the pending command's footprint. -/
theorem hostWrite_next {s t : State} {a : Word} {n v : Nat} (h : hostWrite s a n v = .next t) :
    (legalRegAccess s a n = true ∧ t = writeOffset s (windowOffset s a) (BitVec.ofNat 32 v)) ∨
    (touchesWindow s a n = false ∧ t = s.setMem (Memory.store s.mem n a v)) := by
  unfold hostWrite at h
  split at h
  · split at h
    · exact .inl ⟨‹_›, by simpa using h.symm⟩
    · cases h
  · split at h
    · cases h
    · exact .inr ⟨by simpa using ‹¬touchesWindow s a n = true›, by simpa using h.symm⟩

/-- A host read that answers next changes only what the host has read. -/
theorem hostRead_next {s t : State} {a : Word} {n : Nat} (h : hostRead s a n = .next t) :
    ∃ d, t = { s with hostData := d } := by
  unfold hostRead at h
  split at h
  · split at h
    · exact ⟨_, by simpa using h.symm⟩
    · cases h
  · split at h
    · cases h
    · exact ⟨_, by simpa using h.symm⟩

/-- A host access hits an access list where one of its bytes is covered. -/
theorem hits_iff {a : Word} {n : Nat} {xs : List Access} :
    hits a n xs = true ↔ ∃ b ∈ bytesFrom a n, ∃ x ∈ xs, (b - x.addr).toNat < x.size := by simp [hits, Access.covers]

/-- Everything one step can be. -/
theorem step_cases (s : State) :
    (s.turns = [] ∧ step s = engineStep s) ∨
    ∃ u us, s.turns = u :: us ∧ step s = takeTurn u { s with turns := us } := by
  unfold step
  split
  · exact .inl ⟨‹_›, rfl⟩
  · exact .inr ⟨_, _, ‹_›, rfl⟩

end Sys2Proof.Machine
end

