-- ==== Sys2Proof/Laws/Load.lean ====
section
/-! SUPPORT. What the segment loads can do: the bytes they fetch, the state they leave, and the canonical code's rows. -/

namespace Sys2Proof.Machine

/-! ### Fetching -/

/-- A fetch that stops raises BUS or meets memory with side effects, at the address fetched. -/
theorem fetch_error {s : State} {a : Word} {e : Stop} (h : fetch s a = .error e) :
    e = .error .bus a ∨ e = .sideEffect a := by
  obtain ⟨_, h'⟩ | ⟨_, h'⟩ | ⟨_, h'⟩ := fetch_cases s a <;> rw [h'] at h <;> cases h
  · exact .inl rfl
  · exact .inr rfl

/-- A fetch that answers gives the byte in memory. -/
theorem fetch_ok {s : State} {a : Word} {b : Byte} (h : fetch s a = .ok b) :
    respond s.cfg a 1 = .normal ∧ b = Memory.readByte s.mem a.toNat := by
  obtain ⟨hr, h'⟩ | ⟨_, h'⟩ | ⟨_, h'⟩ := fetch_cases s a <;> rw [h'] at h <;> cases h
  exact ⟨hr, rfl⟩

theorem fetch_of_normal {s : State} {a : Word} (h : respond s.cfg a 1 = .normal) :
    fetch s a = .ok (Memory.readByte s.mem a.toNat) := by simp [fetch, h]

theorem fetch_of_busError {s : State} {a : Word} (h : respond s.cfg a 1 = .busError) :
    fetch s a = .error (.error .bus a) := by simp [fetch, h]

theorem fetch_of_sideEffects {s : State} {a : Word} (h : respond s.cfg a 1 = .sideEffects) :
    fetch s a = .error (.sideEffect a) := by simp [fetch, h]

/-- A run of fetches that answers gives the bytes in memory, one for each address. -/
theorem fetchBytes_ok {s : State} {n : Nat} {a : Word} {bs : List Byte} (h : fetchBytes s n a = .ok bs) :
    bs = (bytesFrom a n).map (fun x => Memory.readByte s.mem x.toNat) ∧
      ∀ x ∈ bytesFrom a n, respond s.cfg x 1 = .normal := by
  induction n generalizing a bs with
  | zero => simp only [fetchBytes, Except.ok.injEq] at h; subst h; simp [bytesFrom]
  | succ n ih =>
    rw [fetchBytes] at h
    split at h
    · cases h
    · rename_i b hb
      split at h
      · cases h
      · rename_i bs' hbs
        simp only [Except.ok.injEq] at h
        obtain ⟨hr, rfl⟩ := fetch_ok hb
        obtain ⟨rfl, hall⟩ := ih hbs
        subst h
        simpa [bytesFrom, hr] using hall

/-- A run of fetches that the platform answers gives the bytes in memory. -/
theorem fetchBytes_of_normal {s : State} {n : Nat} {a : Word}
    (h : ∀ x ∈ bytesFrom a n, respond s.cfg x 1 = .normal) :
    fetchBytes s n a = .ok ((bytesFrom a n).map fun x => Memory.readByte s.mem x.toNat) := by
  induction n generalizing a with
  | zero => rfl
  | succ n ih =>
    simp only [bytesFrom, List.mem_cons, forall_eq_or_imp] at h
    simp [fetchBytes, fetch_of_normal h.1, ih h.2, bytesFrom]

@[simp] theorem length_bytesFrom (a : Word) (n : Nat) : (bytesFrom a n).length = n := by
  induction n generalizing a with
  | zero => rfl
  | succ n ih => simp [bytesFrom, ih]

theorem fetchBytes_length {s : State} {n : Nat} {a : Word} {bs : List Byte} (h : fetchBytes s n a = .ok bs) :
    bs.length = n := by simp [(fetchBytes_ok h).1]

/-! ### The loops -/

@[simp] theorem loadStop_state (s : State) (n : Nat) (a b : Word) (e : Stop) : (loadStop s n a b e).state = s := rfl

@[simp] theorem loadStop_stop (s : State) (n : Nat) (a b : Word) (e : Stop) : (loadStop s n a b e).stop = some e := rfl

@[simp] theorem loadStop_tables (s : State) (n : Nat) (a b : Word) (e : Stop) : (loadStop s n a b e).tables = n := rfl

/-- The loop of LOAD_DQT changes the quantisation slots and the draw counter, nothing else. -/
theorem quantTables_frame (start : Word) (fuel rem : Nat) (p : Word) (n : Nat) (s : State) :
    ∃ qt qv d, (quantTables start fuel rem p n s).state = { s with qt := qt, qv := qv, draws := d } := by
  induction fuel generalizing rem p n s with
  | zero => exact ⟨_, _, _, rfl⟩
  | succ fuel ih =>
    rw [quantTables]
    split
    · exact ⟨_, _, _, rfl⟩
    split
    · exact ⟨_, _, _, rfl⟩
    split
    · exact ⟨_, _, _, rfl⟩
    split
    · exact ⟨_, _, _, rfl⟩
    split
    · exact ⟨_, _, _, rfl⟩
    · obtain ⟨qt, qv, d, h⟩ := ih _ _ _ _
      exact ⟨qt, qv, d, h⟩

/-- The loop of LOAD_DHT changes the Huffman slots and the draw counter, nothing else. -/
theorem huffTables_frame (start : Word) (fuel rem : Nat) (p : Word) (n : Nat) (s : State) :
    ∃ ht hv d, (huffTables start fuel rem p n s).state = { s with ht := ht, hv := hv, draws := d } := by
  induction fuel generalizing rem p n s with
  | zero => exact ⟨_, _, _, rfl⟩
  | succ fuel ih =>
    rw [huffTables]
    split
    · exact ⟨_, _, _, rfl⟩
    split
    · exact ⟨_, _, _, rfl⟩
    split
    · exact ⟨_, _, _, rfl⟩
    split
    · exact ⟨_, _, _, rfl⟩
    split
    · exact ⟨_, _, _, rfl⟩
    split
    · exact ⟨_, _, _, rfl⟩
    split
    · exact ⟨_, _, _, rfl⟩
    · obtain ⟨ht, hv, d, h⟩ := ih _ _ _ _
      exact ⟨ht, hv, d, h⟩

/-- A segment load ends where its length field fails or is too small, with the state unchanged, or as its loop ends. -/
theorem loadSegment_cases (s : State) (minLength : Nat) (tables : Nat → LoadEnd) :
    (∃ a e, loadSegment s minLength tables = loadStop s 0 s.srcAddr a e) ∨
    ∃ rem, loadSegment s minLength tables = tables rem := by
  unfold loadSegment
  simp only
  split
  · exact .inl ⟨_, _, rfl⟩
  · split
    · exact .inl ⟨_, _, rfl⟩
    · exact .inr ⟨_, rfl⟩

/-- A segment load that answers next completes with its table count, or raises with the state its tables left. -/
theorem loadAnswer_next {e : LoadEnd} {t : State} (h : loadAnswer e = .next t) :
    (e.stop = none ∧ t = e.state.complete (BitVec.ofNat 32 e.tables)) ∨
    ∃ code a, e.stop = some (.error code a) ∧ t = e.state.raise code a := by
  unfold loadAnswer at h
  split at h
  · exact .inl ⟨‹_›, by simpa using h.symm⟩
  · obtain ⟨code, a, rfl, rfl⟩ := stopWith_next h
    exact .inr ⟨code, a, ‹_›, rfl⟩

/-- What LOAD_DQT can leave: the quantisation slots, the draw counter, and its outcome. -/
theorem execLoadDqt_next {s t : State} (h : execLoadDqt s = .next t) :
    ∃ qt qv d, (∃ v, t = { s with qt := qt, qv := qv, draws := d }.complete v) ∨
      ∃ code a, t = { s with qt := qt, qv := qv, draws := d }.raise code a := by
  have hs : ∃ qt qv d, (loadDqtEnd s).state = { s with qt := qt, qv := qv, draws := d } := by
    obtain ⟨a, e, h'⟩ | ⟨rem, h'⟩ := loadSegment_cases s 67
      fun rem => quantTables s.srcAddr rem rem (s.srcAddr + 2#32) 0 s
    · exact ⟨_, _, _, by rw [loadDqtEnd, h']; rfl⟩
    · rw [loadDqtEnd, h']
      exact quantTables_frame _ _ _ _ _ _
  obtain ⟨qt, qv, d, hs⟩ := hs
  obtain ⟨_, rfl⟩ | ⟨code, a, _, rfl⟩ := loadAnswer_next h <;> rw [hs]
  · exact ⟨qt, qv, d, .inl ⟨_, rfl⟩⟩
  · exact ⟨qt, qv, d, .inr ⟨code, a, rfl⟩⟩

/-- What LOAD_DHT can leave: the Huffman slots, the draw counter, and its outcome. -/
theorem execLoadDht_next {s t : State} (h : execLoadDht s = .next t) :
    ∃ ht hv d, (∃ v, t = { s with ht := ht, hv := hv, draws := d }.complete v) ∨
      ∃ code a, t = { s with ht := ht, hv := hv, draws := d }.raise code a := by
  have hs : ∃ ht hv d, (loadDhtEnd s).state = { s with ht := ht, hv := hv, draws := d } := by
    obtain ⟨a, e, h'⟩ | ⟨rem, h'⟩ := loadSegment_cases s 19
      fun rem => huffTables s.srcAddr rem rem (s.srcAddr + 2#32) 0 s
    · exact ⟨_, _, _, by rw [loadDhtEnd, h']; rfl⟩
    · rw [loadDhtEnd, h']
      exact huffTables_frame _ _ _ _ _ _
  obtain ⟨ht, hv, d, hs⟩ := hs
  obtain ⟨_, rfl⟩ | ⟨code, a, _, rfl⟩ := loadAnswer_next h <;> rw [hs]
  · exact ⟨ht, hv, d, .inl ⟨_, rfl⟩⟩
  · exact ⟨ht, hv, d, .inr ⟨code, a, rfl⟩⟩

/-! ### The canonical code -/

/-- Build makes one row per code length, with that length's count. -/
theorem buildRows_count (l code k : Nat) (cs : List Byte) : (buildRows l code k cs).1.map CodeRow.count = cs := by
  induction cs generalizing l code k with
  | nil => rfl
  | cons c cs ih => simp [buildRows, ih]

theorem build_count (cs : List Byte) : (build cs).1.map CodeRow.count = cs := buildRows_count 1 0 0 cs

theorem build_length (cs : List Byte) : (build cs).1.length = cs.length := by
  conv_rhs => rw [← build_count cs]
  simp

/-! ### The host's register writes -/

/-- A soft reset is a reset of every register, after draws that change memory and the draw counter alone. -/
theorem softReset_frame (s : State) :
    ∃ m d, s.softReset = State.resetRegisters { s with mem := m, draws := d } := by
  unfold State.softReset
  split
  · obtain ⟨m, d, h⟩ := drawWrites_frame (pendingFootprint s).writes s
    exact ⟨m, d, by rw [h]⟩
  · exact ⟨s.mem, s.draws, rfl⟩

end Sys2Proof.Machine
end

