-- ==== Sys2Proof/Laws/PerInstr.lean ====
section
/-! SUPPORT. The families of statements made once per command, with one lemma for each constructor of Instr. -/

/-- Under its opcode's mask (0xFF and the format's reserved bits) the word of a command is its opcode byte: the row of
the opcode map (30_encoding R118). -/
def Sys2Proof.Laws.EncodingRow.Statement (i : Sys2Proof.Instr) : Prop :=
  Sys2Proof.encode i &&& (0xFF#32 ||| Sys2Proof.reservedMask (Sys2Proof.formatOf (Sys2Proof.instrOpcode i))) =
    (Sys2Proof.opcodeByte (Sys2Proof.instrOpcode i)).setWidth 32

namespace Sys2Proof.Laws.EncodingRow

open Sys2Proof

theorem nop : Statement .nop := by unfold Statement; decide

theorem resetDc : Statement .resetDc := by unfold Statement; decide

theorem restart : Statement .restart := by unfold Statement; decide

theorem loadDqt : Statement .loadDqt := by unfold Statement; decide

theorem loadDht : Statement .loadDht := by unfold Statement; decide

theorem decodeBlock (comp : BitVec 2) (dcsel acsel : Bool) : Statement (.decodeBlock comp dcsel acsel) := by
  unfold Statement; revert comp dcsel acsel; decide

theorem idct (qsel : BitVec 2) (lshift raw : Bool) : Statement (.idct qsel lshift raw) := by
  unfold Statement; revert qsel lshift raw; decide

theorem upsample (hr vr : BitVec 2) : Statement (.upsample hr vr) := by
  unfold Statement; revert hr vr; decide

theorem ycc2rgb (gray : Bool) : Statement (.ycc2rgb gray) := by
  unfold Statement; revert gray; decide

theorem cvt565To8888 : Statement .cvt565To8888 := by unfold Statement; decide

theorem cvt8888To565 : Statement .cvt8888To565 := by unfold Statement; decide

theorem blend (sfmt dfmt : PixelFormat) : Statement (.blend sfmt dfmt) := by
  unfold Statement; cases sfmt <;> cases dfmt <;> decide

end Sys2Proof.Laws.EncodingRow
end

