-- ==== Sys2Proof/Tests/Slice0.lean ====
section
/-! SUPPORT. Small tests: ill-formed commands, words written out from the spec's encodings, one step of each command from
the spec's vectors (95_test_vectors §2), and for every statement with hypotheses a state that meets them. -/

namespace Sys2Proof.Tests

open Sys2Proof.Machine Sys2Proof.Claims

set_option Elab.async false

/-! ### Helpers -/

/-- The start state of the spec's vectors: reset, with MemOK true inside [0x1000, 0x4000) (95_test_vectors §0). -/
def start : State := { State.reset with cfg := { Config.initial with memMap := [⟨0x1000, 0x3000, [1, 2, 4], false⟩] } }

/-- Lay bytes down from an address. -/
def lay : List Nat → Nat → Memory → Memory
  | [], _, m => m
  | b :: bs, a, m => lay bs (a + 1) (Memory.writeByte m a (BitVec.ofNat 8 b))

def withBytes (s : State) (a : Nat) (bs : List Nat) : State := { s with mem := Tests.lay bs a s.mem }

/-- The state after one step, State.reset where the step stops. -/
def next (o : Answer) : State :=
  match o with
  | .next s => s
  | .fault _ => State.reset
  | .refused _ => State.reset

/-- The model fault a step stops on. -/
def faultOf (o : Answer) : Option Fault :=
  match o with
  | .next _ => none
  | .fault f => some f
  | .refused _ => none

/-- Accept a command word and take the engine's step. -/
def issue (w : Nat) (s : State) : State := next (step (s.withFetchWord 32 w))

/-- STATUS, RESULT and ERR_ADDR. -/
def outcome (s : State) : Nat × Nat × Nat := ((statusWord s).toNat, s.result.toNat, s.errAddr.toNat)

/-- `n` 16-bit elements from an address, as signed numbers. -/
def halves (s : State) (a n : Nat) : List Int :=
  (List.range n).map fun i => (BitVec.ofNat 16 (Memory.load s.mem 2 (BitVec.ofNat 32 (a + 2 * i)))).toInt

/-- DQT16 of 95_test_vectors §0. -/
def dqt16 : List Nat := [0x00, 0x43, 0x00] ++ List.replicate 64 0x10

/-- DHT1 of 95_test_vectors §0. -/
def dht1 : List Nat :=
  [0x00, 0x27, 0x00, 0x01, 0x01] ++ List.replicate 14 0 ++ [0x00, 0x06, 0x10, 0x01] ++ List.replicate 15 0 ++ [0x00]

/-- The start state with DQT16 at 0x1000. -/
def atDqt : State := withBytes { start with srcAddr := 0x1000 } 0x1000 dqt16

/-- The start state with DHT1 at 0x1100. -/
def atDht : State := withBytes { start with srcAddr := 0x1100 } 0x1100 dht1

/-- DHT1 loaded, and the entropy bytes A4 7F at 0x1200 (T-DEC-1). -/
def atBlock : State :=
  withBytes { issue 0x09 atDht with bsAddr := 0x1200, bsEnd := 0x1202, dstAddr := 0x1300 } 0x1200 [0xA4, 0x7F]

/-- ACX of 95_test_vectors §0. -/
def acx : List Nat := [0x00, 0x17, 0x11, 0x00, 0x03, 0x01] ++ List.replicate 13 0 ++ [0x00, 0x01, 0xF0, 0x22]

/-- DHT1 and ACX loaded, and the entropy bytes 35 6C at 0x1200 (T-DEC-2). -/
def atSymbols : State :=
  withBytes (issue 0x09 (withBytes { atBlock with srcAddr := 0x1180 } 0x1180 acx)) 0x1200 [0x35, 0x6C]

/-- QT[0] = 16 everywhere and Z[0] = 36 at 0x1500 (T-IDCT-1). -/
def atIdct : State :=
  withBytes { issue 0x08 atDqt with srcAddr := 0x1500, dstAddr := 0x1600, dstStride := 16 } 0x1500 [36, 0]

/-- Plain memory in [0x1000, 0x2000), and memory with side effects in [0x2000, 0x3000). -/
def besideDevice (s : State) : State :=
  { s with cfg := { s.cfg with memMap := [⟨0x1000, 0x1000, [1, 2, 4], false⟩, ⟨0x2000, 0x1000, [1, 2, 4], true⟩] } }

/-- A rectangle at 0x1000 with a destination at 0x1100. -/
def atRect (srcStride dstStride dim : Word) (bytes : List Nat) : State :=
  withBytes { start with srcAddr := 0x1000, srcStride, dstAddr := 0x1100, dstStride, dim } 0x1000 bytes

/-! ### Ill-formed commands (30_encoding R122) -/

theorem test_wellFormed_comp : WellFormed (.decodeBlock 3 false false) = false ∧ WellFormed (.decodeBlock 2 true true) = true := by
  decide

theorem test_wellFormed_qsel : WellFormed (.idct 3 true true) = false ∧ WellFormed (.idct 2 false false) = true := by decide

theorem test_wellFormed_hr : WellFormed (.upsample 0 1) = false ∧ WellFormed (.upsample 3 1) = false := by decide

theorem test_wellFormed_vr :
    WellFormed (.upsample 1 0) = false ∧ WellFormed (.upsample 1 3) = false ∧ WellFormed (.upsample 1 2) = true := by decide

/-! ### Words written out bit by bit from the spec's formats (30_encoding R111 to R118) -/

theorem test_decode_nop : decode (0#24 ++ 0b00000000#8) = .ok .nop := by decide

theorem test_decode_resetDc : decode (0#24 ++ 0b00000001#8) = .ok .resetDc := by decide

theorem test_decode_restart : decode (0#24 ++ 0b00000010#8) = .ok .restart := by decide

theorem test_decode_loadDqt : decode (0#24 ++ 0b00001000#8) = .ok .loadDqt := by decide

theorem test_decode_loadDht : decode (0#24 ++ 0b00001001#8) = .ok .loadDht := by decide

/-- Format D: reserved [31:14], ACSEL [13], DCSEL [12], reserved [11:10], COMP [9:8], OP [7:0]. -/
theorem test_decode_decodeBlock :
    decode (0#18 ++ 0b1#1 ++ 0b0#1 ++ 0#2 ++ 0b10#2 ++ 0b00010000#8) = .ok (.decodeBlock 2 false true) := by decide

/-- Format Q: reserved [31:14], RAW [13], LSHIFT [12], reserved [11:10], QSEL [9:8], OP [7:0]. -/
theorem test_decode_idct :
    decode (0#18 ++ 0b0#1 ++ 0b1#1 ++ 0#2 ++ 0b01#2 ++ 0b00100000#8) = .ok (.idct 1 true false) := by decide

/-- Format U: reserved [31:12], VR [11:10], HR [9:8], OP [7:0]. -/
theorem test_decode_upsample : decode (0#20 ++ 0b01#2 ++ 0b10#2 ++ 0b00110000#8) = .ok (.upsample 2 1) := by decide

/-- Format Y: reserved [31:9], GRAY [8], OP [7:0]. -/
theorem test_decode_ycc2rgb : decode (0#23 ++ 0b1#1 ++ 0b00111000#8) = .ok (.ycc2rgb true) := by decide

theorem test_decode_cvt565To8888 : decode (0#24 ++ 0b01010000#8) = .ok .cvt565To8888 := by decide

theorem test_decode_cvt8888To565 : decode (0#24 ++ 0b01010001#8) = .ok .cvt8888To565 := by decide

/-- Format B: reserved [31:10], DFMT [9], SFMT [8], OP [7:0]. -/
theorem test_decode_blend : decode (0#22 ++ 0b1#1 ++ 0b0#1 ++ 0b01100000#8) = .ok (.blend .rgb565 .argb8888) := by decide

theorem test_decode_rejects :
    decode 0x00000003 = .error (.unknownOpcode 0x03) ∧ decode 0x00000410 = .error (.reservedBits 0x410) ∧
      decodeTableWord 8 0xFF60 = some (.blend .rgb565 .rgb565) := by decide

/-! ### One step of each command -/

/-- T-NOP-1. -/
theorem test_nop : outcome (issue 0x00 { start with pred := #v[1, 2, 3] }) = (2, 0, 0) ∧
    (issue 0x00 { start with pred := #v[1, 2, 3] }).pred = #v[1, 2, 3] := by decide +kernel

/-- 40_control R146, its example. -/
theorem test_resetDc : readOffset (issue 0x01 { start with pred := #v[0, 0xFF9C, 0] }) 0x054 = 0#32 := by decide +kernel

/-- T-RST-1. -/
theorem test_restart :
    let t := issue 0x02 { start with bsAddr := 0x2010, bsEnd := 0x2100, bitcnt := 3, pred := #v[36, 0xFFFB, 7] }
    (t.bsAddr, t.bitcnt, t.bitbuf, t.pred, outcome t) = (0x2012, 0, 0, #v[0, 0, 0], 2, 0, 0) := by decide +kernel

/-- T-RST-2. -/
theorem test_restart_trunc :
    let t := issue 0x02 { start with bsAddr := 0x2010, bsEnd := 0x2011, pred := #v[5, 6, 7] }
    (t.pred, outcome t) = (#v[5, 6, 7], 0xA04, 0, 0x2010) := by decide +kernel

/-- T-DQT-1. -/
theorem test_loadDqt :
    let t := issue 0x08 atDqt
    (outcome t, (tblValidWord t).toNat, t.qt.get 0) = ((2, 1, 0), 0x01, Vector.replicate 64 16) := by decide +kernel

/-- T-DHT-1. -/
theorem test_loadDht : outcome (issue 0x09 atDht) = (2, 2, 0) ∧ tblValidWord (issue 0x09 atDht) = 0x50#32 := by
  decide +kernel

/-- T-DHT-3. -/
theorem test_loadDht_truncated :
    let t := issue 0x09 (withBytes atDht 0x1101 [0x26])
    (outcome t, (tblValidWord t).toNat) = ((0x404, 0, 0x1115), 0x10) := by decide +kernel

/-- T-DEC-1. -/
theorem test_decodeBlock :
    let t := issue 0x10 atBlock
    (outcome t, t.pred, t.bsAddr, t.bitcnt, t.bitbuf, halves t 0x1300 64) =
      ((2, 1, 0), #v[36, 0, 0], 0x1202, 7, 0x7F, 36 :: List.replicate 63 0) := by decide +kernel

/-- T-DEC-2: a run, a negative value, ZRL and an end of block at position 22. -/
theorem test_decodeBlock_acSymbols :
    let t := issue 0x2010 atSymbols
    (outcome t, t.pred, t.bsAddr, t.bitcnt, t.bitbuf, halves t 0x1300 64) =
      ((2, 22, 0), #v[0, 0, 0], 0x1202, 0, 0x6C, [0, 1, -1] ++ List.replicate 18 0 ++ [3] ++ List.replicate 42 0) := by
  decide +kernel

/-- T-IDCT-1. -/
theorem test_idct : halves (issue 0x1020 atIdct) 0x1600 64 = List.replicate 64 200 := by decide +kernel

/-- T-IDCT-3, the first element of each row. -/
theorem test_idct_rows :
    let t := issue 0x2020 (withBytes atIdct 0x1500 ([0, 0] ++ List.replicate 14 0 ++ [0x38, 0xFF]))
    (List.range 8).map (fun r => (halves t (0x1600 + 16 * r) 1).getD 0 0) = [-35, -29, -20, -7, 7, 20, 29, 35] := by
  decide +kernel

/-- T-UP-1. -/
theorem test_upsample :
    halves (issue 0xA30 (atRect 4 8 0x00040004 [10, 0, 20, 0, 30, 0, 40, 0])) 0x1100 16 =
      [10, 10, 20, 20, 10, 10, 20, 20] ++ [30, 30, 40, 40, 30, 30, 40, 40] := by decide +kernel

/-- T-YCC-4. -/
theorem test_ycc2rgb :
    let s := withBytes (withBytes (atRect 4 4 0x00010002 [200, 0, 100, 0]) 0x1010 [0, 0, 0xCE, 0xFF]) 0x1020 [0, 0, 80, 0]
    let t := issue 0x38 { s with auxAddr := 0x1010, aux2Addr := 0x1020, auxStride := 4 }
    (Memory.load t.mem 2 0x1100, Memory.load t.mem 2 0x1102) = (0xCE59, 0xD1E1) := by decide +kernel

/-- T-CVT-8. -/
theorem test_cvt565To8888 :
    let t := issue 0x50 (atRect 4 8 0x00020002 [0x00, 0xF8, 0xE0, 0x07, 0x1F, 0x00, 0x10, 0x84])
    [0x1100, 0x1104, 0x1108, 0x110C].map (Memory.load t.mem 4) = [0xFFFF0000, 0xFF00FF00, 0xFF0000FF, 0xFF848284] := by
  decide +kernel

/-- T-CVT-6. -/
theorem test_cvt8888To565 :
    Memory.load (issue 0x51 (atRect 4 2 0x00010001 [0x56, 0x34, 0x12, 0xFF])).mem 2 0x1100 = 0x11AA := by decide +kernel

/-- T-BLD-1. -/
theorem test_blend :
    Memory.load (issue 0x360 (withBytes (atRect 4 4 0x00010001 [0, 0, 0xFF, 0x80]) 0x1100 [0xFF, 0, 0, 0xFF])).mem 4 0x1100 =
      0xFF80007F := by decide +kernel

/-- T-BLD-13: the source rectangle is the destination. -/
theorem test_blend_overlap :
    let s := { atRect 8 8 0x00010001 [] with dstAddr := 0x1000 }
    faultOf (step (s.withFetchWord 32 0x360)) = some .hazardOverlap := by
  decide +kernel

/-! ### The host and the whole machine -/

/-- T-WERR-1: two ignored writes before the engine's step. -/
theorem test_ignored_writes :
    let s := { start.accept 0x00 with
      dstAddr := 0x1300, pred := #v[5, 6, 7], turns := [.write 0xFFFFF028 4 0x2000, .write 0xFFFFF010 4 0x01] }
    let t := next (step (next (step (next (step s)))))
    (t.dstAddr, t.cmd, t.pred, outcome t) = (0x1300, 0x00, #v[5, 6, 7], 0x0A, 0, 0) := by decide +kernel

/-- T-IRQ-3 and T-IRQ-4. -/
theorem test_irq :
    let t := issue 0x03 { start with doneIe := true }
    (outcome t, irq t, irq (writeOffset t 0x008 0x00000003)) = ((0x104, 0, 0), false, true) := by decide +kernel

/-- T-SR-1. -/
theorem test_soft_reset :
    let s := { atBlock with doneIe := true, errIe := true, pred := #v[5, 6, 7] }
    let t := writeOffset s 0x008 0x80000003
    ctrlWord t = 0 ∧ statusWord t = 0 ∧ tblValidWord t = 0 ∧ t.pred = #v[0, 0, 0] ∧ t.bsAddr = 0 ∧ t.mem = s.mem := by
  decide +kernel

/-- T-HAZ-2. -/
theorem test_host_write_in_the_read_set :
    faultOf (step { atIdct.accept 0x1020 with turns := [.write 0x1500 1 7] }) = some .hazardHostAccess := by decide +kernel

/-- T-HAZ-3: a host write outside the footprint is plain memory. -/
theorem test_host_write_outside_the_footprint :
    Memory.load (next (step { atIdct.accept 0x1020 with turns := [.write 0x2000 1 7] })).mem 1 0x2000 = 7 := by
  decide +kernel

/-! ### States that meet the hypotheses of the statements

Each theorem is named after the statement (in full, with the clause where it has several) whose hypotheses it meets. -/

/-- The bytes from `a` answer the engine and hold the list, as a check. -/
def bytesCheck (s : State) : Word → List Byte → Bool
  | _, [] => true
  | a, b :: bs => decide (respond s.cfg a 1 = .normal ∧ Memory.readByte s.mem a.toNat = b) && bytesCheck s (a + 1#32) bs

theorem bytesAre_of_check {s : State} {a : Word} {bs : List Byte} (h : bytesCheck s a bs = true) : BytesAre s a bs := by
  induction bs generalizing a with
  | nil => trivial
  | cons b bs ih =>
    simp only [bytesCheck, Bool.and_eq_true, decide_eq_true_eq] at h
    exact ⟨h.1, ih h.2⟩

theorem byteIs_of {s : State} {a : Word} {b : Byte}
    (h : respond s.cfg a 1 = .normal ∧ Memory.readByte s.mem a.toNat = b) : ByteIs s a b := h

theorem segmentLength_of {s : State} {len : Nat}
    (h : len < 65536 ∧ (respond s.cfg s.srcAddr 1 = .normal ∧
        Memory.readByte s.mem s.srcAddr.toNat = BitVec.ofNat 8 (len / 256)) ∧
      respond s.cfg (s.srcAddr + 1#32) 1 = .normal ∧
        Memory.readByte s.mem (s.srcAddr + 1#32).toNat = BitVec.ofNat 8 len) : SegmentLength s len := h

/-- A step or command goes on. -/
def goesOn (o : Answer) : Bool :=
  match o with
  | .next _ => true
  | .fault _ => false
  | .refused _ => false

theorem proceeds_of {o : Answer} (h : goesOn o = true) : ∃ t, o = .next t := by
  cases o with
  | next t => exact ⟨t, rfl⟩
  | fault f => cases h
  | refused r => cases h

/-! #### Encoding and the command cycle -/

theorem test_witness_EncodeOfDecodeIsTheWord : decode 0x00002010#32 = .ok (.decodeBlock 0 false true) := by decide

theorem test_witness_WordSelectsItsOpcodeByMaskAndMatch :
    (.upsample, 0x00000030#32, 0xFFFFF0FF#32) ∈ opcodeMap ∧ 0x00000F30#32 &&& 0xFFFFF0FF#32 = 0x00000030#32 ∧
      0x00001030#32 &&& 0xFFFFF0FF#32 ≠ 0x00000030#32 := by decide

theorem test_witness_ReservedWordRaisesIllegal :
    (∀ op ∈ [0x03, 0x07, 0x0A, 0x0F, 0x11, 0x1F, 0x21, 0x2F], ReservedOp op) ∧
    (∀ op ∈ [0x31, 0x37, 0x39, 0x4F, 0x52, 0x5F, 0x61, 0xFF], ReservedOp op) ∧
    ReservedBitSet 0x00000100 ∧ ReservedBitSet 0x00000410 ∧ ReservedBitSet 0x80000060 := by
  refine ⟨?_, ?_, ?_, ?_, ?_⟩
  · unfold ReservedOp; decide
  · unfold ReservedOp; decide
  · exact ⟨(.nop, 0x00#32, 0xFFFFFFFF#32), by decide, by decide, by decide⟩
  · exact ⟨(.decodeBlock, 0x10#32, 0xFFFFCCFF#32), by decide, by decide, by decide⟩
  · exact ⟨(.blend, 0x60#32, 0xFFFFFCFF#32), by decide, by decide, by decide⟩

theorem test_witness_StepRunsTheDecodedCommand :
    decode 0x00000038#32 = .ok (.ycc2rgb false) ∧
    ((start.accept 0x38).busy = true ∧ decode (start.accept 0x38).cmd = .ok (.ycc2rgb false) ∧
      (start.accept 0x38).turns = []) ∧
    ({ start.accept 0x38 with turns := [.engine] }.turns = .engine :: []) ∧ start.busy = false ∧ start.turns = [] := by
  decide +kernel

theorem test_witness_AcceptanceOfACommandWord :
    HostWrites { start with turns := [.write 0xFFFFF010 4 0x60] } 0x010 0x60 [] ∧
    HostWrites { start.accept 0x00 with turns := [.write 0xFFFFF010 4 0x60] } 0x010 0x60 [] ∧
    start.busy = false ∧ (start.accept 0x00).busy = true := by
  unfold HostWrites
  decide +kernel

theorem test_witness_EveryCommandEndsInExactlyOneOutcome :
    start.done = false ∧ start.err = false ∧ exec .nop start = .next (start.complete 0#32) ∧
      exec (.upsample 0 1) start = .next (start.raise .sampling 0#32) := ⟨rfl, rfl, rfl, rfl⟩

/-! #### The register window -/

theorem test_witness_IdentificationAndReservedRegisters :
    (WindowOffset 0x05C ∧ 0x05C ≤ 0x05C) ∧ WindowOffset 0xFFC ∧ ¬WindowOffset 0x1000 := by
  unfold WindowOffset
  decide

theorem test_witness_ParameterAndReadOnlyRegisterWrites :
    start.busy = false ∧ (start.accept 0).busy = true ∧ 0x018 ∈ readOnlyOffsets ∧
      (0x03C, { start with dim := 0x00020003 }) ∈ parameterWrites start 0x00020003 := by decide +kernel

theorem test_witness_ParameterAndReadOnlyRegisterWrites_steps :
    ∀ off ∈ [0x000, 0x040, 0xFFC], WindowOffset off ∧
      HostWrites { start with turns := [.write (0xFFFFF000 + BitVec.ofNat 32 off) 4 7] } off 7 [] ∧
      HostReads { start with turns := [.read (0xFFFFF000 + BitVec.ofNat 32 off) 4] } off [] := by
  unfold WindowOffset HostWrites HostReads
  decide +kernel

/-- Slots QV[1] and HV[2] valid, and a count at each end of its range. -/
theorem test_witness_StatusReadsItsFlagsAndClearsOnOnes :
    readOffset { start with qv := #v[false, true, false], hv := #v[false, false, true, false] } 0x01C = 0x42#32 ∧
    { start with bitcnt := 8 }.bitcnt ≤ 8 ∧ readOffset { start with bitcnt := 8 } 0x04C = 8#32 ∧ start.bitcnt ≤ 8 := by
  decide +kernel

/-- An IDCT pending, from 0x1500 to eight rows of 16 bytes at 0x1600. -/
def pendingIdct : State :=
  { start.accept 0x1020 with
    qv := Vector.replicate 3 true, srcAddr := 0x1500, dstAddr := 0x1600, dstStride := 16 }

theorem test_witness_SoftResetClearsTheEngine :
    (0x80000000#32).getLsbD 31 = true ∧ start.busy = false ∧ pendingIdct.busy = true ∧
      (pendingFootprint pendingIdct).writes ≠ [] := by decide +kernel

theorem test_witness_HardwareResetLeavesTheResetValues :
    { atIdct.accept 0x1020 with turns := [.hardwareReset] }.turns = .hardwareReset :: [] := rfl

theorem test_witness_InterruptFollowsFlagsAndEnables :
    (0x6#32).getLsbD 1 = true ∧ (0x6#32).getLsbD 2 = true ∧ (0x3#32).getLsbD 31 = false ∧
      start.err = false ∧ start.done = false := by decide

/-- Two bytes at an aligned offset, four bytes at an odd one, and four bytes that only reach into the window. -/
theorem test_witness_RegisterAccessOfAnotherWidthIsRefused :
    ∀ x ∈ [(0xFFFFF000#32, 2), (0xFFFFF001#32, 4), (0xFFFFEFFE#32, 4)],
      (∃ b ∈ bytesFrom x.1 x.2, (b - start.cfg.engineBase).toNat < 0x1000) ∧
      ¬(x.2 = 4 ∧ (x.1 - start.cfg.engineBase).toNat < 0x1000 ∧ (x.1 - start.cfg.engineBase).toNat % 4 = 0) := by
  intro x hx
  simp only [List.mem_cons, List.not_mem_nil, or_false] at hx
  obtain rfl | rfl | rfl := hx
  · exact ⟨⟨0xFFFFF000, by decide, by decide⟩, by decide⟩
  · exact ⟨⟨0xFFFFF001, by decide, by decide⟩, by decide⟩
  · exact ⟨⟨0xFFFFF000, by decide, by decide⟩, by decide⟩

/-- The first byte of the read set, the last of the write set, and the bytes beside them. -/
theorem test_witness_HostAccessAgainstAPendingFootprint :
    let inReads := fun (a : Word) => ∃ b ∈ bytesFrom a 1, Touches (pendingFootprint pendingIdct).reads b
    let inWrites := fun (a : Word) => ∃ b ∈ bytesFrom a 1, Touches (pendingFootprint pendingIdct).writes b
    (∀ b ∈ bytesFrom 0x1680 1, 0x1000 ≤ (b - pendingIdct.cfg.engineBase).toNat) ∧ pendingIdct.busy = true ∧
    inReads 0x1500 ∧ inWrites 0x167F ∧ (¬inReads 0x14FF ∧ ¬inWrites 0x14FF) ∧ ¬inWrites 0x1680 := by
  simp only [Touches, ← hits_iff]
  refine ⟨fun b hb => ?_, by decide +kernel⟩
  rw [List.mem_singleton.mp hb]
  decide

/-- A store of two bytes that wraps round the end of the address space: its last byte, and a byte just past it. -/
theorem test_witness_HostAccessAgainstAPendingFootprint_littleEndian :
    2 ≤ 2 ^ 32 ∧ Memory.wf atIdct.mem = true ∧ 1 < 2 ∧ 2 ≤ (0x00000001#32 - 0xFFFFFFFF#32).toNat ∧
      (Memory.readByte (Memory.store [] 2 0xFFFFFFFF 0x1234) 0, Memory.readByte (Memory.store [] 2 0xFFFFFFFF 0x1234) 1) =
        (0x12#8, 0x00#8) := by decide +kernel

theorem atIdct_passes : ProloguePasses pendingIdct (.idct 0 true false) := by
  refine ⟨rfl, fun _ => by decide +kernel, nofun, ?_⟩
  unfold Aligned
  decide +kernel

/-- A command whose prologue passes, one whose area is zero, one whose field is illegal, and the commands with no
accesses. -/
theorem test_witness_HostAccessAgainstAPendingFootprint_prologue :
    (ProloguePasses pendingIdct (.idct 0 true false) ∧ planOf pendingIdct (.idct 0 true false) ≠ none) ∧
    ¬ProloguePasses start .cvt565To8888 ∧ ¬ProloguePasses start (.decodeBlock 3 false false) ∧
    ∀ i ∈ [Instr.nop, .resetDc, .restart], ProloguePasses start i := by
  refine ⟨⟨atIdct_passes, nofun⟩, fun h => ?_, fun h => ?_, fun i hi => ?_⟩
  · exact absurd (h.2.2.1 nofun).1 (by decide)
  · exact absurd h.1 (by decide)
  · simp only [List.mem_cons, List.not_mem_nil, or_false] at hi
    obtain rfl | rfl | rfl := hi <;> exact ⟨rfl, trivial, fun h => absurd rfl h, nofun⟩

/-- A legal word and an illegal one in CMD. -/
theorem test_witness_HostAccessAgainstAPendingFootprint_pending :
    decode pendingIdct.cmd = .ok (.idct 0 true false) ∧ ∀ i, decode (start.accept 0x03).cmd ≠ .ok i := by
  refine ⟨by decide, fun i h => ?_⟩
  rw [show decode (start.accept 0x03).cmd = .error (.unknownOpcode 0x03) by decide] at h
  cases h

/-- T-DEC-1 decodes, T-DEC-10 stops; DQT16 and DHT1 are loaded to their end. -/
theorem test_witness_HostAccessAgainstAPendingFootprint_reads :
    let u := withBytes atBlock 0x1200 [0xFF, 0xD0]
    ProloguePasses atBlock (.decodeBlock 0 false false) ∧ ProloguePasses u (.decodeBlock 0 false false) ∧
    index3 0 = some 0 ∧
    decodeCoeffs atBlock 0 (dcSlot false) (acSlot false) =
      .got (dcBlock 36) ⟨0x1202, 0x7F, 7, [⟨.read, 0x1200, 1, 0⟩, ⟨.read, 0x1201, 1, 0⟩]⟩ ∧
    decodeCoeffs u 0 (dcSlot false) (acSlot false) = .stop (.error .marker 0x1200) (byteReads 0x1200 2) ∧
    (SegmentLength atDqt 67 ∧ atDqt.err = false ∧ ∃ t, exec .loadDqt atDqt = .next t ∧ t.err = false) ∧
    SegmentLength atDht 39 ∧ atDht.err = false ∧ ∃ t, exec .loadDht atDht = .next t ∧ t.err = false := by
  have completes : ∀ o : Answer, goesOn o = true → (next o).err = false → ∃ t, o = .next t ∧ t.err = false := by
    intro o h h'
    obtain ⟨t, rfl⟩ := proceeds_of h
    exact ⟨t, rfl, h'⟩
  refine ⟨⟨rfl, ?_, fun h => absurd rfl h, ?_⟩, ⟨rfl, ?_, fun h => absurd rfl h, ?_⟩, rfl, by decide +kernel,
    by decide +kernel, ⟨segmentLength_of (by decide +kernel), by decide +kernel, completes _ ?_ ?_⟩,
    segmentLength_of (by decide +kernel), by decide +kernel, completes _ ?_ ?_⟩
  · unfold TablesValid; decide +kernel
  · unfold Aligned; decide +kernel
  · unfold TablesValid; decide +kernel
  · unfold Aligned; decide +kernel
  all_goals decide +kernel

/-! #### Errors of the prologue and hazards -/

theorem test_witness_IllegalFieldValuesRaise : (3#2 ≠ 0#2 ∧ 0#2 ≠ 3#2) ∧ (1#2 ≠ 3#2 ∧ (1#2 = 0#2 ∨ 0#2 = 0#2)) := by decide

theorem test_witness_MissingTableRaises :
    (WellFormed (.decodeBlock 2 true true) = true ∧ ¬TablesValid start (.decodeBlock 2 true true)) ∧
    WellFormed (.idct 2 true false) = true ∧ ¬TablesValid start (.idct 2 true false) := by
  refine ⟨⟨rfl, fun h => ?_⟩, rfl, fun h => ?_⟩
  · exact absurd h.1 (by decide)
  · exact absurd (h rfl 2 rfl) (by decide)

/-- T-CVT-10: the third register of the list is the first misaligned one. -/
theorem test_witness_FirstMisalignedRegisterRaises :
    let s := { atRect 2 4 0x00010001 [] with dstAddr := 0x1102 }
    WellFormed .cvt565To8888 = true ∧ TablesValid s .cvt565To8888 ∧ HasArea s ∧
    checkedRegs s .cvt565To8888 = [(0x1000, 2), (2, 2)] ++ (0x1102, 4) :: [(4, 4)] ∧
    Aligned [(0x1000, 2), (2, 2)] ∧ (0x1102#32).toNat % 4 ≠ 0 := by
  refine ⟨rfl, trivial, ?_, ?_, ?_, by decide⟩
  · unfold HasArea; decide +kernel
  · decide +kernel
  · unfold Aligned; decide

theorem test_witness_FirstMisalignedRegisterRaises_elements :
    (4 = 2 ∨ 4 = 4) ∧ (0xFFFFFFFC#32).toNat % 4 = 0 ∧ (0x8#32).toNat % 4 = 0 := by decide

theorem test_witness_ZeroAreaCompletesWithoutAccess :
    WellFormed (.upsample 2 1) = true ∧ rectOf start (.upsample 2 1) ≠ none ∧
      width { start with dim := 0x00050000 } = 0 ∧ height { start with dim := 0x00000005 } = 0 := by
  refine ⟨rfl, nofun, ?_, ?_⟩ <;> decide

/-- The four bytes read hold the two bytes written. -/
theorem test_witness_ReadingAByteItWritesFaults :
    let s := { atRect 4 2 0x00010001 [] with dstAddr := 0x1002 }
    BuffersOk s ((footprint .cvt8888To565 s).reads ++ (footprint .cvt8888To565 s).writes) ∧
    ∃ r ∈ (footprint .cvt8888To565 s).reads, r.kind = .read ∧
      ∃ w ∈ (footprint .cvt8888To565 s).writes, r.meets w = true := by
  unfold BuffersOk
  decide +kernel

theorem test_witness_ReadingAByteItWritesFaults_blend :
    let s := atRect 4 0 0x00020001 []
    HasArea s ∧ Aligned (checkedRegs s (.blend .argb8888 .argb8888)) ∧
    BuffersOk s (rectPlan (blendPixels s .argb8888 .argb8888)) ∧ 0 < height s ∧ 0 < width s ∧ 1 < height s ∧
    (0, 0) ≠ (1, 0) ∧ elem s.dstAddr s.dstStride 0 0 4 = elem s.dstAddr s.dstStride 1 0 4 := by
  refine ⟨?_, ?_, ?_, by decide, by decide, by decide, by decide, by decide⟩
  · unfold HasArea; decide
  · unfold Aligned; decide
  · unfold BuffersOk; decide +kernel

theorem atBlock_decodes : decodeCoeffs atBlock 0 0 2 =
    .got (dcBlock 36) ⟨0x1202, 0x7F, 7, [⟨.read, 0x1200, 1, 0⟩, ⟨.read, 0x1201, 1, 0⟩]⟩ := by decide +kernel

theorem test_witness_ReadingAByteItWritesFaults_decode :
    let s := { atBlock with dstAddr := 0x1200 }
    let r : Reader := ⟨0x1202, 0x7F, 7, [⟨.read, 0x1200, 1, 0⟩, ⟨.read, 0x1201, 1, 0⟩]⟩
    index3 0 = some 0 ∧ TablesValid s (.decodeBlock 0 false false) ∧ s.dstAddr.toNat % 2 = 0 ∧
    decodeCoeffs s 0 (dcSlot false) (acSlot false) = .got (dcBlock 36) r ∧ BuffersOk s (decodePlan s) ∧
    ∃ x ∈ r.seen, ∃ w ∈ decodePlan s, x.meets w = true := by
  refine ⟨rfl, ?_, by decide, ?_, ?_, ?_⟩
  · unfold TablesValid; decide +kernel
  · decide +kernel
  · unfold BuffersOk; decide +kernel
  · decide +kernel

/-- Two writes or two reads of one byte are no overlap; a read and a write are, but for BLEND's own in one pixel step. -/
theorem test_witness_ReadingAByteItWritesFaults_overlapping :
    overlapping [⟨.write, 0x1000, 2, 0⟩, ⟨.write, 0x1000, 2, 1⟩] = false ∧
    overlapping [⟨.read, 0x1000, 2, 0⟩, ⟨.read, 0x1001, 2, 1⟩] = false ∧
    overlapping [⟨.modify, 0x1000, 4, 3⟩, ⟨.write, 0x1000, 4, 3⟩] = false ∧
    overlapping [⟨.modify, 0x1000, 4, 3⟩, ⟨.write, 0x1000, 4, 4⟩] = true ∧
    overlapping [⟨.read, 0x1001, 2, 0⟩, ⟨.write, 0x1002, 2, 0⟩] = true := by decide

/-- The shape of T-CVT-11 beside a device: the second source pixel is memory with side effects. -/
theorem test_witness_ReadingAByteItWritesFaults_sideEffects :
    let s := besideDevice { start with srcAddr := 0x1FFE, dstAddr := 0x1100, dim := 0x00010002 }
    let before : List Access := [⟨.read, 0x1FFE, 2, 0⟩, ⟨.write, 0x1100, 4, 0⟩]
    let x : Access := ⟨.read, 0x2000, 2, 1⟩
    WellFormed .cvt565To8888 = true ∧ TablesValid s .cvt565To8888 ∧
    planOf s .cvt565To8888 = some (rectPlan (widenPixels s)) ∧ HasArea s ∧ Aligned (checkedRegs s .cvt565To8888) ∧
    rectPlan (widenPixels s) = before ++ x :: [⟨.write, 0x1104, 4, 1⟩] ∧ BuffersOk s before ∧
    respond s.cfg x.addr x.size = .sideEffects ∧ overlapping before = false := by
  refine ⟨rfl, trivial, rfl, ?_, ?_, by decide +kernel, ?_, by decide, by decide⟩
  · unfold HasArea; decide
  · unfold Aligned; decide
  · unfold BuffersOk; decide

/-- Beside a device: the first coefficient write of T-DEC-1, and its first entropy byte. -/
theorem test_witness_ReadingAByteItWritesFaults_decodeSideEffects :
    let s := besideDevice { atBlock with dstAddr := 0x2000 }
    let u := besideDevice { atBlock with bsAddr := 0x2000, bsEnd := 0x2002 }
    let r : Reader := ⟨0x1202, 0x7F, 7, [⟨.read, 0x1200, 1, 0⟩, ⟨.read, 0x1201, 1, 0⟩]⟩
    let x : Access := ⟨.write, 0x2000, 2, 0⟩
    index3 0 = some 0 ∧ TablesValid s (.decodeBlock 0 false false) ∧ TablesValid u (.decodeBlock 0 false false) ∧
    s.dstAddr.toNat % 2 = 0 ∧ u.dstAddr.toNat % 2 = 0 ∧
    (decodeCoeffs s 0 (dcSlot false) (acSlot false) = .got (dcBlock 36) r ∧
      decodePlan s = [] ++ x :: (decodePlan s).drop 1 ∧ BuffersOk s [] ∧ respond s.cfg x.addr x.size = .sideEffects ∧
      overlapping (r.seen ++ []) = false) ∧
    decodeCoeffs u 0 (dcSlot false) (acSlot false) = .stop (.sideEffect 0x2000) [] := by
  refine ⟨rfl, ?_, ?_, by decide +kernel, by decide +kernel,
    ⟨by decide +kernel, by decide +kernel, nofun, by decide +kernel, by decide⟩, by decide +kernel⟩
  · unfold TablesValid; decide +kernel
  · unfold TablesValid; decide +kernel

/-- The first byte of a pair, and the second after 0xFF, are memory with side effects. -/
theorem test_witness_ReadingAByteItWritesFaults_readerSideEffects :
    let s := besideDevice (withBytes { start with bsEnd := 0x2001 } 0x1FFF [0xFF])
    (0x2000#32).toNat < s.bsEnd.toNat ∧ respond s.cfg 0x2000 1 = .sideEffects ∧ ByteIs s 0x1FFF 0xFF ∧
    (0x1FFF#32).toNat + 1 < s.bsEnd.toNat ∧ respond s.cfg (0x1FFF + 1#32) 1 = .sideEffects := by
  unfold ByteIs
  decide +kernel

/-- A segment's length field begins or ends in memory with side effects. -/
theorem test_witness_ReadingAByteItWritesFaults_lengthSideEffects :
    ∀ i ∈ [Instr.loadDqt, .loadDht],
      LoadReaches (besideDevice { start with srcAddr := 0x2000 }) i 0x2000 ∧
      LoadReaches (besideDevice { start with srcAddr := 0x1FFF }) i 0x2000 ∧
      respond (besideDevice start).cfg 0x2000 1 = .sideEffects := by
  intro i hi
  simp only [List.mem_cons, List.not_mem_nil, or_false] at hi
  obtain rfl | rfl := hi
  all_goals exact ⟨.inl rfl, .inr (.inl ⟨by decide, by decide⟩), by decide⟩

/-- The id byte and an entry of a quantisation table at the edge of memory with side effects. -/
theorem test_witness_ReadingAByteItWritesFaults_dqtSideEffects :
    LoadReaches (besideDevice (withBytes { start with srcAddr := 0x1FFE } 0x1FFE [0x00, 0x43])) .loadDqt 0x2000 ∧
    LoadReaches (besideDevice (withBytes { start with srcAddr := 0x1FC0 } 0x1FC0 [0x00, 0x43, 0x01])) .loadDqt 0x2000 :=
  ⟨.inr (.inr ⟨67, [], segmentLength_of (by decide +kernel), by decide, trivial, .inl (by decide)⟩),
    .inr (.inr ⟨67, [], segmentLength_of (by decide +kernel), by decide, trivial,
      .inr ⟨1, List.replicate 61 0x00#8, byteIs_of (by decide +kernel), by decide, bytesAre_of_check (by decide +kernel),
        by decide⟩⟩)⟩

/-- The id byte, a count and a symbol of a Huffman table at the edge of memory with side effects. -/
theorem test_witness_ReadingAByteItWritesFaults_dhtSideEffects :
    LoadReaches (besideDevice (withBytes { start with srcAddr := 0x1FFE } 0x1FFE [0x00, 0x13])) .loadDht 0x2000 ∧
    LoadReaches (besideDevice (withBytes { start with srcAddr := 0x1FF8 } 0x1FF8 [0x00, 0x13, 0x10])) .loadDht 0x2000 ∧
    LoadReaches (besideDevice (withBytes { start with srcAddr := 0x1FEC } 0x1FEC [0x00, 0x15, 0x11, 0x02])) .loadDht
      0x2000 :=
  ⟨.inr (.inr ⟨19, [], segmentLength_of (by decide +kernel), by decide, trivial, .inl (by decide)⟩),
    .inr (.inr ⟨19, [], segmentLength_of (by decide +kernel), by decide, trivial,
      .inr ⟨2, List.replicate 5 0x00#8, byteIs_of (by decide +kernel), bytesAre_of_check (by decide +kernel),
        .inl ⟨by decide, by decide⟩⟩⟩),
    .inr (.inr ⟨21, [], segmentLength_of (by decide +kernel), by decide, trivial,
      .inr ⟨3, 2#8 :: List.replicate 15 0#8, byteIs_of (by decide +kernel), bytesAre_of_check (by decide +kernel),
        .inr ⟨rfl, by decide, by decide, by decide, [0x00#8], by decide, bytesAre_of_check (by decide +kernel),
          by decide⟩⟩⟩)⟩

/-- Each command with a fixed list of accesses has one, here of two accesses for each pixel, three with a destination read,
four with chroma. -/
theorem test_witness_FirstFailingAccessRaisesBus_accesses :
    ([Instr.idct 0 true false, .upsample 2 1, .ycc2rgb true, .ycc2rgb false, .cvt565To8888, .cvt8888To565,
        .blend .rgb565 .argb8888, .blend .argb8888 .rgb565].map fun i =>
      (planOf { start with dim := 0x00010002 } i).map List.length) =
      [some 128, some 4, some 4, some 8, some 4, some 4, some 4, some 6] := by decide +kernel

/-- T-CVT-11. -/
theorem test_witness_FirstFailingAccessRaisesBus :
    let s := { start with srcAddr := 0x3FFE, dstAddr := 0x1100, dim := 0x00010002 }
    let before : List Access := [⟨.read, 0x3FFE, 2, 0⟩, ⟨.write, 0x1100, 4, 0⟩]
    let x : Access := ⟨.read, 0x4000, 2, 1⟩
    WellFormed .cvt565To8888 = true ∧ TablesValid s .cvt565To8888 ∧
    planOf s .cvt565To8888 = some (rectPlan (widenPixels s)) ∧ HasArea s ∧ Aligned (checkedRegs s .cvt565To8888) ∧
    rectPlan (widenPixels s) = before ++ x :: [⟨.write, 0x1104, 4, 1⟩] ∧ BuffersOk s before ∧
    respond s.cfg x.addr x.size = .busError ∧ overlapping before = false := by
  refine ⟨rfl, trivial, rfl, ?_, ?_, by decide +kernel, ?_, by decide, by decide⟩
  · unfold HasArea; decide
  · unfold Aligned; decide
  · unfold BuffersOk; decide

/-- T-IDCT-11: the read of Z[32] is the first access to fail. -/
theorem test_witness_FirstFailingAccessRaisesBus_idct :
    let s := { pendingIdct with srcAddr := 0x3FC0 }
    let before := (idctPlan s).take 32
    let x : Access := ⟨.read, 0x4000, 2, 0⟩
    WellFormed (.idct 0 true false) = true ∧ TablesValid s (.idct 0 true false) ∧
    planOf s (.idct 0 true false) = some (idctPlan s) ∧ rectOf s (.idct 0 true false) = none ∧
    Aligned (checkedRegs s (.idct 0 true false)) ∧ idctPlan s = before ++ x :: (idctPlan s).drop 33 ∧
    BuffersOk s before ∧ respond s.cfg x.addr x.size = .busError ∧ overlapping before = false := by
  refine ⟨rfl, fun _ => by decide, rfl, rfl, ?_, by decide +kernel, ?_, by decide, by decide +kernel⟩
  · unfold Aligned; decide +kernel
  · unfold BuffersOk; decide +kernel

/-- T-DEC-17: the first coefficient write fails. -/
theorem test_witness_FirstFailingAccessRaisesBus_decode :
    let s := { atBlock with dstAddr := 0x9000 }
    let r : Reader := ⟨0x1202, 0x7F, 7, [⟨.read, 0x1200, 1, 0⟩, ⟨.read, 0x1201, 1, 0⟩]⟩
    let x : Access := ⟨.write, 0x9000, 2, 0⟩
    index3 0 = some 0 ∧ TablesValid s (.decodeBlock 0 false false) ∧ s.dstAddr.toNat % 2 = 0 ∧
    decodeCoeffs s 0 (dcSlot false) (acSlot false) = .got (dcBlock 36) r ∧
    decodePlan s = [] ++ x :: (decodePlan s).drop 1 ∧ BuffersOk s [] ∧ respond s.cfg x.addr x.size = .busError ∧
    overlapping (r.seen ++ []) = false := by
  refine ⟨rfl, ?_, by decide, by decide +kernel, by decide +kernel, nofun, by decide +kernel, by decide⟩
  unfold TablesValid
  decide +kernel

/-- The length field's first byte, its second byte, and the id byte of a segment are the first byte past memory. -/
theorem test_witness_FirstFailingAccessRaisesBus_segments :
    let q := withBytes { start with srcAddr := 0x3FFE } 0x3FFE [0x00, 0x43]
    let h := withBytes { start with srcAddr := 0x3FFE } 0x3FFE [0x00, 0x13]
    respond start.cfg 0x4000 1 = .busError ∧ respond start.cfg 0x3FFF 1 = .normal ∧ 0x3FFF + 1#32 = 0x4000#32 ∧
    (SegmentLength q 67 ∧ 67 + 65 * 0 ≤ 67 ∧ QuantSegment q (q.srcAddr + 2#32) [] ∧
      respond q.cfg (q.srcAddr + BitVec.ofNat 32 (2 + 65 * 0)) 1 = .busError) ∧
    SegmentLength h 19 ∧ 19 + huffSize [] ≤ 19 ∧ HuffSegment h (h.srcAddr + 2#32) [] ∧
      respond h.cfg (h.srcAddr + BitVec.ofNat 32 (2 + huffSize [])) 1 = .busError :=
  ⟨by decide, by decide, by decide,
    ⟨segmentLength_of (by decide +kernel), by decide, trivial, by decide +kernel⟩,
    segmentLength_of (by decide +kernel), by decide, trivial, by decide +kernel⟩

/-- An access in the window under a map that answers everywhere; no region, or none for the size; and the two answers. -/
theorem test_witness_FirstFailingAccessRaisesBus_respond :
    let c := { Config.initial with memMap := [⟨0, 2 ^ 32, [1, 2, 4], false⟩] }
    let d := (besideDevice start).cfg
    (respond c 0xFFFFF004 4 = .busError ∧ respond c 0x1000 4 = .normal) ∧
    (respond start.cfg 0x4000 1 = .busError ∧ respond start.cfg 0x3FFE 4 = .busError ∧
      respond start.cfg 0x1000 3 = .busError) ∧
    d.memMap = [⟨0x1000, 0x1000, [1, 2, 4], false⟩] ++ ⟨0x2000, 0x1000, [1, 2, 4], true⟩ :: [] ∧
    (0x2000 ≤ (0x2FFC#32).toNat ∧ (0x2FFC#32).toNat + 4 ≤ 0x2000 + 0x1000 ∧ 4 ∈ [1, 2, 4]) ∧
    ¬((0x2FFC#32).toNat + 4 ≤ 0x1000 + 0x1000) ∧ respond d 0x2FFC 4 = .sideEffects ∧ respond d 0x1FFC 4 = .normal := by
  decide +kernel

/-! #### Control commands -/

theorem test_witness_NopOnlyCompletes :
    (start.accept 0x100).cmd.extractLsb' 0 8 = 0x00#8 ∧ (start.accept 0x100).cmd ≠ 0#32 ∧ start.werr = false := by decide

theorem test_witness_ResetDcClearsThePredictors :
    (start.accept 0x101).cmd.extractLsb' 0 8 = 0x01#8 ∧ (start.accept 0x101).cmd ≠ 1#32 := by decide

theorem test_witness_RestartSkipsTheMarkerOrRaisesTrunc :
    (0x2011#32).toNat < (0x2010#32).toNat + 2 ∧ (0x2010#32).toNat + 2 ≤ (0x2012#32).toNat := by decide

/-! #### Table loading -/

theorem atDqt_length : SegmentLength atDqt 67 := segmentLength_of (by decide +kernel)

theorem atDqt_segment : QuantSegment atDqt (atDqt.srcAddr + 2#32) [(0, Vector.replicate 64 16)] :=
  ⟨byteIs_of (by decide +kernel), bytesAre_of_check (by decide +kernel), trivial⟩

theorem test_witness_LoadDqtCommitsEveryTable :
    [((0 : Fin 3), (Vector.replicate 64 16 : QuantTable))] ≠ [] ∧ SegmentLength atDqt (2 + 65 * 1) ∧
      QuantSegment atDqt (atDqt.srcAddr + 2#32) [(0, Vector.replicate 64 16)] := ⟨nofun, atDqt_length, atDqt_segment⟩

theorem test_witness_LoadDqtSegmentErrors_short :
    SegmentLength (withBytes atDqt 0x1001 [0x42]) 66 ∧ 66 < 67 := ⟨segmentLength_of (by decide +kernel), by decide⟩

theorem test_witness_LoadDqtSegmentErrors_rest :
    let s := withBytes atDqt 0x1001 [0x44]
    SegmentLength s 68 ∧ 67 ≤ 68 ∧ QuantSegment s (s.srcAddr + 2#32) [(0, Vector.replicate 64 16)] ∧
      2 + 65 * 1 < 68 ∧ 68 < 67 + 65 * 1 :=
  ⟨segmentLength_of (by decide +kernel), by decide,
    ⟨byteIs_of (by decide +kernel), bytesAre_of_check (by decide +kernel), trivial⟩, by decide, by decide⟩

theorem test_witness_LoadDqtSegmentErrors_id :
    let s := withBytes (withBytes atDqt 0x1001 [0x84]) 0x1043 [0x03]
    SegmentLength s 132 ∧ QuantSegment s (s.srcAddr + 2#32) [(0, Vector.replicate 64 16)] ∧ 67 + 65 * 1 ≤ 132 ∧
      ByteIs s (s.srcAddr + BitVec.ofNat 32 (2 + 65 * 1)) 0x03 ∧ 2 < (0x03#8).toNat :=
  ⟨segmentLength_of (by decide +kernel), ⟨byteIs_of (by decide +kernel), bytesAre_of_check (by decide +kernel), trivial⟩,
    by decide, byteIs_of (by decide +kernel), by decide⟩

/-- The segment runs past the end of memory after 61 entries. -/
theorem test_witness_FailedDqtLoadInvalidatesOnlyItsSlot :
    let s := withBytes { start with srcAddr := 0x3FC0 } 0x3FC0 [0x00, 0x43, 0x01]
    let p := s.srcAddr + BitVec.ofNat 32 (2 + 65 * 0)
    SegmentLength s 67 ∧ 67 + 65 * 0 ≤ 67 ∧ QuantSegment s (s.srcAddr + 2#32) [] ∧
      ByteIs s p (BitVec.ofNat 8 (1 : Fin 3).val) ∧ (List.replicate 61 0x00#8).length < 64 ∧
      BytesAre s (p + 1#32) (List.replicate 61 0x00#8) ∧ respond s.cfg (p + 1#32 + BitVec.ofNat 32 61) 1 = .busError :=
  ⟨segmentLength_of (by decide +kernel), by decide, trivial, byteIs_of (by decide +kernel), by decide,
    bytesAre_of_check (by decide +kernel), by decide +kernel⟩

/-- The two tables of DHT1. -/
def dht1Tables : List HuffEntry :=
  [⟨0, 1#8 :: 1#8 :: List.replicate 14 0#8, [0x00#8, 0x06#8]⟩, ⟨2, 1#8 :: List.replicate 15 0#8, [0x00#8]⟩]

theorem dht1_segment {s : State}
    (h : bytesCheck s 0x1102 ((dht1.drop 2).map (BitVec.ofNat 8)) = true) (hs : s.srcAddr = 0x1100) :
    HuffSegment s (s.srcAddr + 2#32) dht1Tables := by
  rw [hs]
  have h := bytesAre_of_check h
  have cut : ∀ (n : Nat) (bs : List Byte) (a : Word), BytesAre s a bs → BytesAre s (a + BitVec.ofNat 32 n) (bs.drop n) := by
    intro n
    induction n with
    | zero => intro bs a h; simpa using h
    | succ n ih =>
      intro bs a h
      cases bs with
      | nil => simp [BytesAre]
      | cons b bs =>
        have := ih bs (a + 1#32) h.2
        rwa [show a + 1#32 + BitVec.ofNat 32 n = a + BitVec.ofNat 32 (n + 1) by bv_omega] at this
  have take : ∀ (n : Nat) (bs : List Byte) (a : Word), BytesAre s a bs → BytesAre s a (bs.take n) := by
    intro n
    induction n with
    | zero => intro bs a _; simp [BytesAre]
    | succ n ih =>
      intro bs a h
      cases bs with
      | nil => exact h
      | cons b bs => exact ⟨h.1, ih bs _ h.2⟩
  exact ⟨(take 1 _ _ (cut 0 _ _ h)).1, rfl, rfl, by decide, by decide, take 16 _ _ (cut 1 _ _ h), take 2 _ _ (cut 17 _ _ h),
    (take 1 _ _ (cut 19 _ _ h)).1, rfl, rfl, by decide, by decide, take 16 _ _ (cut 20 _ _ h),
    take 1 _ _ (cut 36 _ _ h), trivial⟩

theorem test_witness_LoadDhtCommitsEveryTable :
    dht1Tables ≠ [] ∧ SegmentLength atDht (2 + huffSize dht1Tables) ∧
      HuffSegment atDht (atDht.srcAddr + 2#32) dht1Tables :=
  ⟨nofun, segmentLength_of (by decide +kernel), dht1_segment (by decide +kernel) rfl⟩

theorem test_witness_LoadDhtSegmentErrors_short :
    SegmentLength (withBytes atDht 0x1101 [0x12]) 18 ∧ 18 < 19 := ⟨segmentLength_of (by decide +kernel), by decide⟩

theorem test_witness_LoadDhtSegmentErrors_rest :
    let s := withBytes atDht 0x1101 [0x28]
    SegmentLength s 40 ∧ 19 ≤ 40 ∧ HuffSegment s (s.srcAddr + 2#32) dht1Tables ∧
      2 + huffSize dht1Tables < 40 ∧ 40 < 19 + huffSize dht1Tables :=
  ⟨segmentLength_of (by decide +kernel), by decide, dht1_segment (by decide +kernel) rfl, by decide, by decide⟩

theorem test_witness_LoadDhtSegmentErrors_id :
    let s := withBytes (withBytes atDht 0x1101 [0x38]) 0x1127 [0x02]
    SegmentLength s 56 ∧ HuffSegment s (s.srcAddr + 2#32) dht1Tables ∧ 19 + huffSize dht1Tables ≤ 56 ∧
      ByteIs s (s.srcAddr + BitVec.ofNat 32 (2 + huffSize dht1Tables)) 0x02 ∧
      (1 < (0x02#8).toNat / 16 ∨ 1 < (0x02#8).toNat % 16) ∧ (1 < (0x20#8).toNat / 16 ∨ 1 < (0x20#8).toNat % 16) :=
  ⟨segmentLength_of (by decide +kernel), dht1_segment (by decide +kernel) rfl, by decide, byteIs_of (by decide +kernel),
    by decide, by decide⟩

/-- The segment runs past the end of memory after 5 of the 16 counts. -/
theorem test_witness_FailedDhtLoadInvalidatesOnlyItsSlot_counts :
    let s := withBytes { start with srcAddr := 0x3FF8 } 0x3FF8 [0x00, 0x13, 0x10]
    let p := s.srcAddr + BitVec.ofNat 32 (2 + huffSize [])
    let counts := List.replicate 5 0x00#8
    SegmentLength s 19 ∧ 19 + huffSize [] ≤ 19 ∧ HuffSegment s (s.srcAddr + 2#32) [] ∧ ByteIs s p (huffId 2) ∧
      BytesAre s (p + 1#32) counts ∧ counts.length < 16 ∧
      respond s.cfg (p + 1#32 + BitVec.ofNat 32 counts.length) 1 = .busError :=
  ⟨segmentLength_of (by decide +kernel), by decide, trivial, byteIs_of (by decide +kernel),
    bytesAre_of_check (by decide +kernel), by decide, by decide +kernel⟩

/-- Three codes of one bit, 257 symbols, and (below) a legal table whose symbols do not fit or cannot be read. -/
theorem test_witness_FailedDhtLoadInvalidatesOnlyItsSlot_overfull :
    ∀ counts ∈ [3#8 :: List.replicate 15 0#8, List.replicate 14 0#8 ++ [255#8, 2#8]],
      let s := withBytes { start with srcAddr := 0x1100 } 0x1100 ([0x00, 0x13, 0x01] ++ counts.map BitVec.toNat)
      SegmentLength s 19 ∧ 19 + huffSize [] ≤ 19 ∧ HuffSegment s (s.srcAddr + 2#32) [] ∧
      ByteIs s (s.srcAddr + BitVec.ofNat 32 (2 + huffSize [])) (huffId 1) ∧ counts.length = 16 ∧
      BytesAre s (s.srcAddr + BitVec.ofNat 32 (2 + huffSize []) + 1#32) counts ∧
      (256 < totalOf counts ∨ (build counts).2 = false) := by
  intro counts h
  simp only [List.mem_cons, List.not_mem_nil, or_false] at h
  obtain rfl | rfl := h
  · exact ⟨segmentLength_of (by decide +kernel), by decide, trivial, byteIs_of (by decide +kernel), rfl,
      bytesAre_of_check (by decide +kernel), by decide⟩
  · exact ⟨segmentLength_of (by decide +kernel), by decide, trivial, byteIs_of (by decide +kernel), rfl,
      bytesAre_of_check (by decide +kernel), by decide⟩

/-- A legal table of two symbols at the end of memory: it needs a length of 21, and its second symbol is not mapped. -/
theorem test_witness_FailedDhtLoadInvalidatesOnlyItsSlot_symbols :
    ∀ len ∈ [20, 21],
      let counts := 2#8 :: List.replicate 15 0#8
      let s := withBytes { start with srcAddr := 0x3FEC } 0x3FEC ([0x00, len, 0x11, 0x02])
      let p := s.srcAddr + BitVec.ofNat 32 (2 + huffSize [])
      SegmentLength s len ∧ 19 + huffSize [] ≤ len ∧ HuffSegment s (s.srcAddr + 2#32) [] ∧ ByteIs s p (huffId 3) ∧
      counts.length = 16 ∧ BytesAre s (p + 1#32) counts ∧ ¬(256 < totalOf counts ∨ (build counts).2 = false) ∧
      (len < 19 + huffSize [] + totalOf counts ∨
        19 + huffSize [] + totalOf counts ≤ len ∧ [0x00#8].length < totalOf counts ∧ BytesAre s (p + 17#32) [0x00#8] ∧
        respond s.cfg (p + 17#32 + BitVec.ofNat 32 [0x00#8].length) 1 = .busError) := by
  intro len h
  simp only [List.mem_cons, List.not_mem_nil, or_false] at h
  obtain rfl | rfl := h
  · exact ⟨segmentLength_of (by decide +kernel), by decide, trivial, byteIs_of (by decide +kernel), rfl,
      bytesAre_of_check (by decide +kernel), by decide, .inl (by decide)⟩
  · exact ⟨segmentLength_of (by decide +kernel), by decide, trivial, byteIs_of (by decide +kernel), rfl,
      bytesAre_of_check (by decide +kernel), by decide,
      .inr ⟨by decide, by decide, bytesAre_of_check (by decide +kernel), by decide +kernel⟩⟩

/-- A code that fills its tree. -/
theorem test_witness_BuiltRowsFormACanonicalCode :
    let counts := 2#8 :: List.replicate 15 0#8
    counts.length = 16 ∧ totalOf counts ≤ 256 ∧ (build counts).2 = true := by decide

/-- A complete code, one that is over-subscribed at its last length, and the rows of a code with an empty length. -/
theorem test_witness_BuiltRowsFormACanonicalCode_rows :
    (build (1#8 :: 1#8 :: 2#8 :: List.replicate 13 0#8)).2 = true ∧
    (build (List.replicate 15 1#8 ++ [3#8])).2 = false ∧
    (build (1#8 :: 0#8 :: 3#8 :: List.replicate 13 0#8)).1.take 4 =
      [⟨1, 0, 0, 0⟩, ⟨0, 2, -1, 1⟩, ⟨3, 4, 6, 1⟩, ⟨0, 14, -1, 4⟩] := by decide

theorem test_witness_SegmentLoadsDependOnlyOnTheirSegment :
    let m := (withBytes atDqt 0x1043 [9]).mem
    SegmentLength atDqt 67 ∧
    (∀ k < max 67 2, Memory.readByte m (atDqt.srcAddr + BitVec.ofNat 32 k).toNat =
      Memory.readByte atDqt.mem (atDqt.srcAddr + BitVec.ofNat 32 k).toNat) ∧ m ≠ atDqt.mem ∧
    ∃ t, exec .loadDqt atDqt = .next t :=
  ⟨atDqt_length, by decide +kernel, by decide +kernel, proceeds_of (by decide +kernel)⟩

/-! #### Entropy decoding -/

theorem test_witness_ExtendGivesTheSignedCoefficient :
    (1 ≤ 11 ∧ 1023 < 2 ^ (11 - 1)) ∧ 2 ^ (11 - 1) ≤ 1024 ∧ 2047 < 2 ^ 11 := by decide

/-- Each clause of FetchByte, with a reader at the address given and the end bound given. -/
theorem test_witness_FetchByteRemovesStuffing :
    let s := withBytes (withBytes atBlock 0x3FFF [0xFF]) 0x1200 [0xA4, 0xFF, 0x00, 0xFF, 0xD0]
    (0x1200#32).toNat ≤ (0x1200#32).toNat ∧ (0x4000#32).toNat < (0x4001#32).toNat ∧
    respond s.cfg 0x4000 1 = .busError ∧ ByteIs s 0x1200 0xA4 ∧ 0xA4#8 ≠ 0xFF#8 ∧ ByteIs s 0x1201 0xFF ∧
    (0x1202#32).toNat ≤ (0x1201#32).toNat + 1 ∧ (0x1201#32).toNat + 1 < (0x1203#32).toNat ∧
    ByteIs s 0x3FFF 0xFF ∧ respond s.cfg (0x3FFF + 1#32) 1 = .busError ∧ ByteIs s (0x1201 + 1#32) 0x00 ∧
    ByteIs s 0x1203 0xFF ∧ ByteIs s (0x1203 + 1#32) 0xD0 ∧ 0xD0#8 ≠ 0x00#8 := by
  unfold ByteIs
  decide +kernel

theorem test_witness_ReceiveTakesBufferedBitsMsbFirst :
    ∀ n ∈ [0, 3, 8], n ≤ (Reader.mk 0x1200 0xA4 8 []).cnt ∧ (Reader.mk 0x1200 0xA4 8 []).cnt ≤ 8 := by decide

theorem test_witness_ReceiveTakesBufferedBitsMsbFirst_nextBit :
    ∀ n ∈ [1, 8], 0 < (Reader.mk 0x1200 0xA4 n []).cnt ∧ (Reader.mk 0x1200 0xA4 n []).cnt ≤ 8 := by decide

/-- A refill that gives a byte, one that stops at the end bound, and two bits left over before three of A4. -/
theorem test_witness_ReceiveTakesBufferedBitsMsbFirst_refill :
    let r : Reader := ⟨0x1200, 0x03, 2, []⟩
    let seen : List Access := [⟨.read, 0x1200, 1, 0⟩]
    fetchByte atBlock { r with cnt := 0 } = .got 0xA4 ⟨0x1201, 0x03, 0, seen⟩ ∧
    fetchByte atBlock ⟨0x1202, 0x7F, 0, []⟩ = .stop (.error .trunc 0x1202) [] ∧
    r.cnt ≤ 8 ∧ r.cnt < 5 ∧ 5 ≤ r.cnt + 8 := by decide +kernel

theorem atBlock_built : Built (atBlock.ht.get 0) := by
  unfold Built
  decide +kernel

/-- The bits `10` of A4 are the code of symbol 6 (T-DEC-1). -/
theorem test_witness_HuffmanSymbolIsAStoredOne :
    Built (atBlock.ht.get 0) ∧
      huffDecode atBlock 0 (startReader atBlock) = .got 6 ⟨0x1201, 0xA4, 6, [⟨.read, 0x1200, 1, 0⟩]⟩ :=
  ⟨atBlock_built, by decide +kernel⟩

theorem test_witness_CanonicalCodeDecodesToItsSymbol :
    let row := (atBlock.ht.get 0).rows.get 1
    Built (atBlock.ht.get 0) ∧
      receive atBlock 2 (startReader atBlock) = .got 2 ⟨0x1201, 0xA4, 6, [⟨.read, 0x1200, 1, 0⟩]⟩ ∧
      row.mincode ≤ 2 ∧ ((2 : Nat) : Int) ≤ row.maxcode := ⟨atBlock_built, by decide +kernel⟩

/-- T-DEC-6: sixteen 1 bits match no code of slot 0; and after one of two bits the reader stops. -/
theorem test_witness_CanonicalCodeDecodesToItsSymbol_huffCode :
    let s := withBytes { atBlock with bsEnd := 0x1206 } 0x1200 [0xFF, 0x00, 0xFF, 0x00, 0xFF, 0x00]
    (∃ r', receive s 16 (startReader s) = .got 0xFFFF r' ∧ r'.addr = 0x1204 ∧ NoMatch (s.ht.get 0) 16 0xFFFF) ∧
    receive s 1 ⟨0x1206, 0x01, 1, []⟩ = .got 1 ⟨0x1206, 0x01, 0, []⟩ ∧ NoMatch (s.ht.get 0) 1 1 ∧ 1 < 16 ∧
    nextBit s ⟨0x1206, 0x01, 0, []⟩ = .stop (.error .trunc 0x1206) [] := by
  refine ⟨⟨⟨0x1204, 0xFF, 0, [⟨.read, 0x1200, 1, 0⟩, ⟨.read, 0x1201, 1, 0⟩, ⟨.read, 0x1202, 1, 0⟩, ⟨.read, 0x1203, 1, 0⟩]⟩,
    by decide +kernel, rfl, ?_⟩, by decide +kernel, ?_, by decide, by decide +kernel⟩
  · unfold NoMatch; decide +kernel
  · unfold NoMatch; decide +kernel

theorem atBlock_tables : TablesValid atBlock (.decodeBlock 0 false false) := by
  unfold TablesValid
  decide +kernel

theorem atBlock_buffers : BuffersOk atBlock (decodePlan atBlock) := by
  unfold BuffersOk
  decide +kernel

theorem test_witness_DecodeBlockWritesItsCoefficients :
    let r : Reader := ⟨0x1202, 0x7F, 7, [⟨.read, 0x1200, 1, 0⟩, ⟨.read, 0x1201, 1, 0⟩]⟩
    index3 0 = some 0 ∧ Memory.wf atBlock.mem = true ∧ TablesValid atBlock (.decodeBlock 0 false false) ∧
    atBlock.dstAddr.toNat % 2 = 0 ∧ decodeCoeffs atBlock 0 (dcSlot false) (acSlot false) = .got (dcBlock 36) r ∧
    BuffersOk atBlock (decodePlan atBlock) ∧ FootprintsDisjoint (r.seen ++ decodePlan atBlock) :=
  ⟨rfl, by decide +kernel, atBlock_tables, by decide +kernel, atBlock_decodes, atBlock_buffers,
    by unfold FootprintsDisjoint; decide +kernel⟩

/-- The reader of T-DEC-2 with `n` bits of its first byte left. -/
def symbolsFirst (n : Nat) : Reader := ⟨0x1201, 0x35, n, [⟨.read, 0x1200, 1, 0⟩]⟩

/-- The reader of T-DEC-2 with `n` bits of its second byte left. -/
def symbolsSecond (n : Nat) : Reader := ⟨0x1202, 0x6C, n, [⟨.read, 0x1200, 1, 0⟩, ⟨.read, 0x1201, 1, 0⟩]⟩

/-- T-DEC-2: the symbols 0x01, 0x01, ZRL and 0x22 with their value bits, then end-of-block at position 22. -/
theorem test_witness_DecodeBlockWritesItsCoefficients_symbols :
    huffDecode atSymbols 0 (startReader atSymbols) = .got 0 (symbolsFirst 7) ∧ (0#8).toNat ≤ 11 ∧
    receive atSymbols (0#8).toNat (symbolsFirst 7) = .got 0 (symbolsFirst 7) ∧
    AcSymbols atSymbols 3 1 (symbolsFirst 7) [(0x01, 1), (0x01, 0), (0xF0, 0), (0x22, 3)] 22 (symbolsSecond 2) ∧
    22 < 64 ∧ huffDecode atSymbols 3 (symbolsSecond 2) = .got 0x00 (symbolsSecond 0) := by
  refine ⟨by decide +kernel, by decide, by decide +kernel, ?_, by decide, by decide +kernel⟩
  refine ⟨by unfold AcLegal; decide, symbolsFirst 5, symbolsFirst 4, by decide +kernel, by decide +kernel, ?_⟩
  refine ⟨by unfold AcLegal; decide, symbolsFirst 2, symbolsFirst 1, by decide +kernel, by decide +kernel, ?_⟩
  refine ⟨by unfold AcLegal; decide, symbolsSecond 7, symbolsSecond 7, by decide +kernel, by decide +kernel, ?_⟩
  exact ⟨by unfold AcLegal; decide, symbolsSecond 4, symbolsSecond 2, by decide +kernel, by decide +kernel, rfl, rfl⟩

/-- T-DEC-7, its table at the address of ACX: DC category 12. -/
theorem test_witness_DecodeBlockWritesItsCoefficients_category :
    let s := issue 0x09 (withBytes { atBlock with srcAddr := 0x1180 } 0x1180
      ([0x00, 0x14, 0x01, 0x01] ++ List.replicate 15 0 ++ [0x0C]))
    let s := withBytes s 0x1200 [0x00]
    huffDecode s 1 (startReader s) = .got 0x0C ⟨0x1201, 0x00, 7, [⟨.read, 0x1200, 1, 0⟩]⟩ ∧ 11 < (0x0C#8).toNat := by
  decide +kernel

/-- T-DEC-6 and T-DEC-8 stop before the DC category is read. -/
theorem test_witness_DecodeBlockWritesItsCoefficients_dcStops :
    let s := withBytes { atBlock with bsEnd := 0x1206 } 0x1200 [0xFF, 0x00, 0xFF, 0x00, 0xFF, 0x00]
    let u := { atBlock with bsEnd := 0x1200 }
    huffDecode s 0 (startReader s) = .stop (.error .huffCode 0x1204)
      [⟨.read, 0x1200, 1, 0⟩, ⟨.read, 0x1201, 1, 0⟩, ⟨.read, 0x1202, 1, 0⟩, ⟨.read, 0x1203, 1, 0⟩] ∧
    huffDecode u 0 (startReader u) = .stop (.error .trunc 0x1200) [] := by decide +kernel

/-- The two bits left over hold the code of category 6, and its value bits lie past the end bound. -/
theorem test_witness_DecodeBlockWritesItsCoefficients_dcValueStops :
    let s := { atBlock with bsAddr := 0x1202, bitbuf := 0x02, bitcnt := 2 }
    huffDecode s 0 (startReader s) = .got 6 ⟨0x1202, 0x02, 0, []⟩ ∧ (6#8).toNat ≤ 11 ∧
    receive s (6#8).toNat ⟨0x1202, 0x02, 0, []⟩ = .stop (.error .trunc 0x1202) [] := by decide +kernel

/-- The tables of T-DEC-2 with the bits `0`, three ZRL, and five times `110 11` (run 2, value 3). -/
def atFull : State := withBytes { atSymbols with bsEnd := 0x1204 } 0x1200 [0x55, 0xBD, 0xEF, 0x7B]

/-- The reader of a full block after `n` bytes, with `cnt` bits of the last left. -/
def fullReader (n : Nat) (cnt : Nat) : Reader :=
  ⟨0x1200 + BitVec.ofNat 32 n, Memory.readByte atFull.mem (0x11FF + n), cnt,
    (List.range n).map fun i => ⟨.read, 0x1200 + BitVec.ofNat 32 i, 1, 0⟩⟩

/-- A block that ends at k = 64, its last coefficient at position 63, with no end-of-block symbol. -/
theorem test_witness_DecodeBlockWritesItsCoefficients_full :
    let r := fullReader
    huffDecode atFull 0 (startReader atFull) = .got 0 (r 1 7) ∧ (0#8).toNat ≤ 11 ∧
    receive atFull (0#8).toNat (r 1 7) = .got 0 (r 1 7) ∧
    AcSymbols atFull 3 1 (r 1 7) (List.replicate 3 (0xF0, 0) ++ List.replicate 5 (0x22, 3)) 64 (r 4 0) := by
  refine ⟨by decide +kernel, by decide, by decide +kernel, ?_⟩
  refine ⟨by unfold AcLegal; decide, fullReader 1 5, fullReader 1 5, by decide +kernel, by decide +kernel, ?_⟩
  refine ⟨by unfold AcLegal; decide, fullReader 1 3, fullReader 1 3, by decide +kernel, by decide +kernel, ?_⟩
  refine ⟨by unfold AcLegal; decide, fullReader 1 1, fullReader 1 1, by decide +kernel, by decide +kernel, ?_⟩
  refine ⟨by unfold AcLegal; decide, fullReader 2 6, fullReader 2 4, by decide +kernel, by decide +kernel, ?_⟩
  refine ⟨by unfold AcLegal; decide, fullReader 2 1, fullReader 3 7, by decide +kernel, by decide +kernel, ?_⟩
  refine ⟨by unfold AcLegal; decide, fullReader 3 4, fullReader 3 2, by decide +kernel, by decide +kernel, ?_⟩
  refine ⟨by unfold AcLegal; decide, fullReader 4 7, fullReader 4 5, by decide +kernel, by decide +kernel, ?_⟩
  exact ⟨by unfold AcLegal; decide, fullReader 4 2, fullReader 4 0, by decide +kernel, by decide +kernel, rfl, rfl⟩

/-- A decoded block and one that stops at a marker, with the bytes each has read. -/
theorem test_witness_DecodeBlockWritesItsCoefficients_bytesRead :
    decodeCoeffs atBlock 0 0 2 = .got (dcBlock 36) ⟨0x1202, 0x7F, 7, byteReads 0x1200 2⟩ ∧
    decodeCoeffs (withBytes atBlock 0x1200 [0xFF, 0xD0]) 0 0 2 = .stop (.error .marker 0x1200) (byteReads 0x1200 2) ∧
    atBlock.bsAddr = 0x1200 := by decide +kernel

/-- Symbols that are COEF: size 11, size 0 with run 1, and a run or ZRL past position 63; with what is still legal. -/
theorem test_witness_DecodeBlockWritesItsCoefficients_coef :
    ¬AcLegal 1 0x0B ∧ ¬AcLegal 1 0x10 ∧ ¬AcLegal 49 0xF0 ∧ ¬AcLegal 63 0x11 ∧
    AcLegal 1 0x0A ∧ AcLegal 48 0xF0 ∧ AcLegal 62 0x11 ∧ AcLegal 63 0x01 := by
  unfold AcLegal
  decide

/-- After DC category 0 the stream holds a symbol of size 11 (0x0B), or of size 0 with run 1 (0x10). -/
theorem test_witness_DecodeBlockWritesItsCoefficients_coefSymbols :
    let table := [0x00, 0x17, 0x11, 0x00, 0x03, 0x01] ++ List.replicate 13 0 ++ [0x00, 0x0B, 0x10, 0x22]
    let s := issue 0x09 (withBytes { atBlock with srcAddr := 0x1180 } 0x1180 table)
    let seen : List Access := [⟨.read, 0x1200, 1, 0⟩]
    (huffDecode (withBytes s 0x1200 [0x20]) 3 ⟨0x1201, 0x20, 7, seen⟩ = .got 0x0B ⟨0x1201, 0x20, 5, seen⟩ ∧
      AcSymbols (withBytes s 0x1200 [0x20]) 3 1 ⟨0x1201, 0x20, 7, seen⟩ [] 1 ⟨0x1201, 0x20, 7, seen⟩) ∧
    huffDecode (withBytes s 0x1200 [0x40]) 3 ⟨0x1201, 0x40, 7, seen⟩ = .got 0x10 ⟨0x1201, 0x40, 5, seen⟩ :=
  ⟨⟨by decide +kernel, rfl, rfl⟩, by decide +kernel⟩

/-- T-DEC-9: after the DC coefficient the bit reader stops before an AC symbol; and one that stops in its value bits. -/
theorem test_witness_DecodeBlockWritesItsCoefficients_stops :
    let seen : List Access := [⟨.read, 0x1200, 1, 0⟩]
    let s := { atBlock with bsEnd := 0x1201 }
    let u := { atSymbols with bsEnd := 0x1201 }
    huffDecode s 2 ⟨0x1201, 0xA4, 0, seen⟩ = .stop (.error .trunc 0x1201) seen ∧
    huffDecode u 3 ⟨0x1201, 0x35, 2, seen⟩ = .got 0x01 ⟨0x1201, 0x35, 0, seen⟩ ∧ AcLegal 1 0x01 ∧
    receive u (acSize 0x01) ⟨0x1201, 0x35, 0, seen⟩ = .stop (.error .trunc 0x1201) seen := by
  unfold AcLegal
  decide +kernel

theorem test_witness_DecodeBlockOfADcOnlyBlock :
    let first : Access := ⟨.read, 0x1200, 1, 0⟩
    let both : List Access := [first, ⟨.read, 0x1201, 1, 0⟩]
    index3 0 = some 0 ∧ Memory.wf atBlock.mem = true ∧ TablesValid atBlock (.decodeBlock 0 false false) ∧
    atBlock.dstAddr.toNat % 2 = 0 ∧
    huffDecode atBlock (dcSlot false) (startReader atBlock) = .got 6 ⟨0x1201, 0xA4, 6, [first]⟩ ∧ (6#8).toNat ≤ 11 ∧
    receive atBlock (6#8).toNat ⟨0x1201, 0xA4, 6, [first]⟩ = .got 36 ⟨0x1201, 0xA4, 0, [first]⟩ ∧
    huffDecode atBlock (acSlot false) ⟨0x1201, 0xA4, 0, [first]⟩ = .got 0x00 ⟨0x1202, 0x7F, 7, both⟩ ∧
    BuffersOk atBlock (decodePlan atBlock) ∧ FootprintsDisjoint (both ++ decodePlan atBlock) :=
  ⟨rfl, by decide +kernel, atBlock_tables, by decide +kernel, by decide +kernel, by decide, by decide +kernel,
    by decide +kernel, atBlock_buffers, by unfold FootprintsDisjoint; decide +kernel⟩

/-- T-DEC-10. -/
theorem test_witness_DecodeBlockErrorState :
    let s := withBytes atBlock 0x1200 [0xFF, 0xD0]
    index3 0 = some 0 ∧ TablesValid s (.decodeBlock 0 false false) ∧ s.dstAddr.toNat % 2 = 0 ∧
    decodeCoeffs s 0 (dcSlot false) (acSlot false) =
      .stop (.error .marker 0x1200) [⟨.read, 0x1200, 1, 0⟩, ⟨.read, 0x1201, 1, 0⟩] := by
  refine ⟨rfl, ?_, by decide +kernel, by decide +kernel⟩
  unfold TablesValid
  decide +kernel

/-! #### The inverse transform -/

theorem lastWriter_of {s : State} {w h esz row col : Nat}
    (hs : ∀ (r : Fin h) (c : Fin w), row * w + col < r.val * w + c.val →
      (bytesFrom (elem s.dstAddr s.dstStride row col esz) esz).all
        (fun a => !(bytesFrom (elem s.dstAddr s.dstStride r.val c.val esz) esz).contains a) = true) :
    LastWriter s w h esz row col := by
  intro r hr c hc hlt a ha
  simpa using List.all_eq_true.mp (hs ⟨r, hr⟩ ⟨c, hc⟩ hlt) a ha

theorem test_witness_IdctWritesItsSamples :
    index3 0 = some 0 ∧ Memory.wf pendingIdct.mem = true ∧ TablesValid pendingIdct (.idct 0 true false) ∧
      TablesValid start (.idct 0 true true) ∧ Aligned (checkedRegs pendingIdct (.idct 0 true false)) ∧
      BuffersOk pendingIdct (idctPlan pendingIdct) ∧ FootprintsDisjoint (idctPlan pendingIdct) ∧
      LastWriter pendingIdct 8 8 2 0 0 ∧ LastWriter pendingIdct 8 8 2 7 7 := by
  refine ⟨rfl, by decide, fun _ => by decide +kernel, nofun, ?_, ?_, ?_, lastWriter_of (by decide +kernel),
    lastWriter_of (by decide +kernel)⟩
  · unfold Aligned; decide +kernel
  · unfold BuffersOk; decide +kernel
  · unfold FootprintsDisjoint; decide +kernel

theorem test_witness_PrepareScattersThroughTheZigzag : (List.replicate 64 (-32768 : Int)).length = 64 := by decide

theorem test_witness_ShortcutsAndDcOnlyBlocks :
    0 < 8 ∧ 7 < 8 ∧ rowPass 1 2 3 4 5 6 7 8 ≠ rowPass 1 2 3 4 5 6 7 0 := by decide

theorem test_witness_TransformOutputsAreBounded :
    (∀ u : Fin 8, -32768 ≤ (fun _ => 32767 : Fin 8 → Int) u ∧ (fun _ => 32767 : Fin 8 → Int) u ≤ 32767) ∧
      ∀ x ∈ List.replicate 64 (-32768 : Int), -32768 ≤ x ∧ x ≤ 32767 := by decide

/-! #### Rectangles -/

/-- Two pixels of two bytes each, source and destination apart. -/
def atPixels : State :=
  { atRect 4 4 0x00010002 [0x11, 0x22, 0x33, 0x44] with auxAddr := 0x1020, aux2Addr := 0x1030, auxStride := 4 }

theorem test_witness_UpsampleReplicatesSamples :
    WellFormed (.upsample 2 2) = true ∧ RectReady atPixels (.upsample 2 2) (upsamplePixels atPixels 2 2) ∧
      LastWriter atPixels (width atPixels) (height atPixels) 2 0 0 := by
  refine ⟨rfl, ⟨by decide +kernel, ?_, ?_, ?_, ?_⟩, lastWriter_of (by decide +kernel)⟩
  · unfold HasArea; decide +kernel
  · unfold Aligned; decide +kernel
  · unfold BuffersOk; decide +kernel
  · unfold FootprintsDisjoint; decide +kernel

theorem test_witness_YccPixelsAreConverted :
    RectReady atPixels (.ycc2rgb true) (yccPixels atPixels true) ∧
      RectReady atPixels (.ycc2rgb false) (yccPixels atPixels false) := by
  refine ⟨⟨by decide +kernel, ?_, ?_, ?_, ?_⟩, ⟨by decide +kernel, ?_, ?_, ?_, ?_⟩⟩
  all_goals first
    | (unfold HasArea; decide +kernel)
    | (unfold Aligned; decide +kernel)
    | (unfold BuffersOk; decide +kernel)
    | (unfold FootprintsDisjoint; decide +kernel)

theorem test_witness_YccToRgbProperties : (0 : Int) ≤ 255 ∧ (-128 : Int) ≤ 127 := by decide

/-- A GRAY conversion that completes, and one that meets the overlap hazard. -/
theorem test_witness_GrayIgnoresTheChromaRegisters :
    (∃ t, exec (.ycc2rgb true) atPixels = .next t) ∧
      exec (.ycc2rgb true) { atPixels with dstAddr := 0x1000 } = .fault .hazardOverlap := by
  refine ⟨proceeds_of (by decide +kernel), ?_⟩
  have h : faultOf (exec (.ycc2rgb true) { atPixels with dstAddr := 0x1000 }) = some .hazardOverlap := by decide +kernel
  unfold faultOf at h
  split at h
  · cases h
  · cases h
    assumption
  · cases h

theorem test_witness_WideningConvertsEveryPixel : RectReady atPixels .cvt565To8888 (widenPixels atPixels) := by
  refine ⟨by decide +kernel, ?_, ?_, ?_, ?_⟩
  · unfold HasArea; decide +kernel
  · unfold Aligned; decide +kernel
  · unfold BuffersOk; decide +kernel
  · unfold FootprintsDisjoint; decide +kernel

theorem test_witness_NarrowingConvertsEveryPixel : RectReady atPixels .cvt8888To565 (narrowPixels atPixels) := by
  refine ⟨by decide +kernel, ?_, ?_, ?_, ?_⟩
  · unfold HasArea; decide +kernel
  · unfold Aligned; decide +kernel
  · unfold BuffersOk; decide +kernel
  · unfold FootprintsDisjoint; decide +kernel

theorem test_witness_ExpansionRoundTrips : 31 < 32 ∧ 63 < 64 ∧ 0 < 256 ∧ 255 < 256 := by decide

theorem test_witness_BlendCompositesEveryPixel :
    ∀ f ∈ [(PixelFormat.rgb565, PixelFormat.rgb565), (.rgb565, .argb8888), (.argb8888, .rgb565), (.argb8888, .argb8888)],
      RectReady atPixels (.blend f.1 f.2) (blendPixels atPixels f.1 f.2) := by
  intro f hf
  simp only [List.mem_cons, List.not_mem_nil, or_false] at hf
  obtain rfl | rfl | rfl | rfl := hf <;> refine ⟨by decide +kernel, ?_, ?_, ?_, ?_⟩
  all_goals first
    | (unfold HasArea; decide +kernel)
    | (unfold Aligned; decide +kernel)
    | (unfold BuffersOk; decide +kernel)
    | (unfold FootprintsDisjoint; decide +kernel)

/-! #### The blender and the whole machine -/

theorem test_witness_BlendPixelIsTheOverFormula :
    (0x01FFFFFF#32).toNat / 2 ^ 24 + (0x01000000#32).toNat / 2 ^ 24 -
      (0x01FFFFFF#32).toNat / 2 ^ 24 * ((0x01000000#32).toNat / 2 ^ 24) / 255 ≠ 0 := by decide

theorem test_witness_BlendChannelsFitEightBits : 0 ≤ 255 ∧ 255 ≤ 255 := by decide

theorem test_witness_OpaqueAndTransparentForegrounds :
    alphaOf 0xFF123456 = 255 ∧ alphaOf 0x00123456 = 0 ∧ 0 < 1 ∧
      alphaOut (alphaOf 0x00FFFFFF) (alphaOf 0x00ABCDEF) = 0 := by decide

/-- Every command goes on from some state. -/
theorem test_witness_CommandsChangeOnlyWhatTheirRulesName :
    ∀ i ∈ [Instr.nop, .resetDc, .restart, .loadDqt, .loadDht, .decodeBlock 0 false false, .idct 0 true false,
      .upsample 1 1, .ycc2rgb true, .cvt565To8888, .cvt8888To565, .blend .rgb565 .rgb565],
      ∃ t, exec i start = .next t := by
  intro i hi
  apply proceeds_of
  revert i
  decide +kernel

theorem test_witness_EveryStepKeepsTheInvariant :
    let s := atBlock.accept 0x10
    s.Inv ∧ ∃ t, step s = .next t := by
  refine ⟨⟨by decide +kernel, ⟨by decide +kernel, by decide +kernel, by decide +kernel, by decide +kernel, by decide +kernel,
    by decide +kernel⟩, by decide +kernel, ?_⟩, proceeds_of (by decide +kernel)⟩
  unfold Built
  decide +kernel

theorem start_atReset : AtReset start := ⟨rfl, rfl⟩

/-- The state after the host's accepted write of a command to the R372 state. -/
theorem test_witness_EveryStepKeepsTheInvariant_resetClean :
    ∃ t, ResetClean t ∧ t.busy = true := by
  have hs : AtReset { start with turns := [.write 0xFFFFF010 4 0x60] } := ⟨rfl, rfl⟩
  exact ⟨start.accept 0x60, .step _ _ (.reset _ hs) rfl, rfl⟩

theorem test_witness_ResetStateMeetsTheInvariant : AtReset start ∧ Memory.wf atIdct.mem = true :=
  ⟨start_atReset, by decide +kernel⟩

end Sys2Proof.Tests
end

section
/-! PROOF. The register window's constants, reserved offsets and reserved bits (10_state R33, R34, R53). -/

namespace Sys2Proof.Machine

/-! ### Reserved offsets -/

/-- The map has 23 registers, so it ends before offset 0x05C. -/
theorem regAt_reserved {off : Nat} (h : 0x05C ≤ off) : regAt off = none := by
  have hlen : regMap.length = 23 := rfl
  exact List.getElem?_eq_none (by omega)

theorem readOffset_reserved (s : State) {off : Nat} (h : 0x05C ≤ off) : readOffset s off = 0#32 := by
  rw [readOffset, regAt_reserved h]

theorem writeOffset_reserved (s : State) {off : Nat} (h : 0x05C ≤ off) (v : Word) : writeOffset s off v = s := by
  rw [writeOffset, regAt_reserved h]

/-! ### Reserved bits read 0 -/

theorem ctrlWord_reserved (s : State) : ctrlWord s &&& 0xFFFFFFFC#32 = 0#32 := by
  unfold ctrlWord
  generalize s.errIe = e, s.doneIe = d
  revert e d
  decide

theorem statusWord_reserved (s : State) : statusWord s &&& 0xFFFFF0F0#32 = 0#32 := by
  unfold statusWord
  generalize s.errcode = c, s.werr = w, s.err = e, s.done = d, s.busy = b
  revert c w e d b
  decide

theorem tblValidWord_reserved (s : State) : tblValidWord s &&& 0xFFFFFF08#32 = 0#32 := by
  unfold tblValidWord
  generalize s.hv[3] = h3, s.hv[2] = h2, s.hv[1] = h1, s.hv[0] = h0, s.qv[2] = q2, s.qv[1] = q1, s.qv[0] = q0
  revert h3 h2 h1 h0 q2 q1 q0
  decide

/-- A word that holds a field of `n` bits at its bottom is 0 above it. -/
theorem setWidth_and_eq_zero {n : Nat} (x : BitVec n) {m : Word} (h : ∀ i < n, m.getLsbD i = false) :
    x.setWidth 32 &&& m = 0#32 := by
  apply BitVec.eq_of_getLsbD_eq
  intro i hi
  by_cases hn : i < n
  · simp [h i hn]
  · simp [BitVec.getLsbD_of_ge x i (by omega)]

/-! ### Writes to reserved bits are ignored -/

theorem writeReg_ctrl_mask (s : State) (v : Word) :
    writeReg s (v &&& 0x80000003#32) .ctrl = writeReg s v .ctrl := by
  simp [writeReg]

theorem clearFlags_mask (s : State) (v : Word) : s.clearFlags (v &&& 0x0000000E#32) = s.clearFlags v := by
  simp [State.clearFlags]

/-- Settles O10, a lemma for each register with reserved bits. -/
theorem identificationAndReservedRegisters : Obligations.IdentificationAndReservedRegisters := by
  intro s
  refine ⟨rfl, rfl, fun _ => ⟨rfl, rfl⟩, ?_, ctrlWord_reserved s, statusWord_reserved s, tblValidWord_reserved s,
    setWidth_and_eq_zero s.bitbuf (by decide), setWidth_and_eq_zero (BitVec.ofNat 4 s.bitcnt) (by decide),
    fun v => (writeReg_ctrl_mask s v).symm, fun v => (clearFlags_mask s v).symm⟩
  intro off _ h
  exact ⟨readOffset_reserved s h, writeOffset_reserved s h⟩

end Sys2Proof.Machine
end

section
/-! PROOF. The frame of every command: each ends, by `complete` or `raise`, from a state that differs from the one it
started in only where its rule says (10_state R64). -/

namespace Sys2Proof.Machine

/-! ### Write sets -/

theorem mem_writeBytes {xs : List Access} {a : Word} :
    a ∈ writeBytes xs ↔ ∃ x ∈ xs, x.isWrite = true ∧ a ∈ bytesFrom x.addr x.size := by
  simp [writeBytes, and_assoc]

theorem writeBytes_planFootprint_pass (plan : List Access) :
    writeBytes (planFootprint .pass plan).writes = writeBytes plan := by
  simp [planFootprint, writeBytes]

/-- Free values drawn over a plan's write set leave every other byte alone. -/
theorem readByte_drawWrites_of_not_mem {plan : List Access} {s : State} {a : Word} (h : a ∉ writeBytes plan) :
    Memory.readByte (s.drawWrites plan).mem a.toNat = Memory.readByte s.mem a.toNat :=
  readByte_drawBytes_of_not_mem h

/-! ### What the writing commands leave of memory -/

/-- Pixel steps write no byte outside their accesses' write set. -/
theorem readByte_runPixels_of_not_mem_writeBytes {ps : List Pixel} {m : Memory} {a : Word}
    (h : a ∉ writeBytes (rectPlan ps)) : Memory.readByte (runPixels ps m) a.toNat = Memory.readByte m a.toNat := by
  refine readByte_runPixels_of_not_mem fun p hp hmem => h (mem_writeBytes.2 ?_)
  have hw : (⟨.write, p.dst, p.size, p.step⟩ : Access) ∈ rectPlan ps :=
    List.mem_flatMap.2 ⟨p, hp, List.mem_append_right _ List.mem_cons_self⟩
  exact ⟨_, hw, rfl, hmem⟩

/-- Consecutive 16-bit writes leave every byte outside their elements alone. -/
theorem readByte_storeHalves_of_not_mem {vs : List Half} {a b : Word} {m : Memory}
    (h : ∀ i < vs.length, b ∉ bytesFrom (a + BitVec.ofNat 32 (2 * i)) 2) :
    Memory.readByte (storeHalves vs a m) b.toNat = Memory.readByte m b.toNat := by
  induction vs generalizing a m with
  | nil => rfl
  | cons v vs ih =>
    have hhead : b ∉ bytesFrom a 2 := by simpa using h 0 (by simp)
    have htail : ∀ i < vs.length, b ∉ bytesFrom (a + 2#32 + BitVec.ofNat 32 (2 * i)) 2 := by
      intro i hi
      have hstep : a + 2#32 + BitVec.ofNat 32 (2 * i) = a + BitVec.ofNat 32 (2 * (i + 1)) := by bv_omega
      rw [hstep]
      exact h (i + 1) (by simpa using hi)
    rw [storeHalves, ih htail, Memory.readByte_store_of_not_mem _ hhead]

/-- A block's 64 coefficients go to DECODE_BLOCK's write set only. -/
theorem readByte_storeBlock_of_not_mem_writeBytes {s : State} (z : Vector Half 64) {a : Word}
    (h : a ∉ writeBytes (decodePlan s)) :
    Memory.readByte (storeHalves z.toList s.dstAddr s.mem) a.toNat = Memory.readByte s.mem a.toNat := by
  refine readByte_storeHalves_of_not_mem fun i hi hmem => h (mem_writeBytes.2 ?_)
  have hw : (⟨.write, s.dstAddr + BitVec.ofNat 32 (2 * i), 2, 0⟩ : Access) ∈ decodePlan s :=
    List.mem_map.2 ⟨i, by simpa using hi, rfl⟩
  exact ⟨_, hw, rfl, hmem⟩

/-- Output samples leave every byte outside their elements alone. -/
theorem readByte_storeSamples_of_not_mem {s : State} {sample : Nat × Nat → Int} {rcs : List (Nat × Nat)} {m : Memory}
    {b : Word} (h : ∀ rc ∈ rcs, b ∉ bytesFrom (idctDst s rc) 2) :
    Memory.readByte (storeSamples s sample rcs m) b.toNat = Memory.readByte m b.toNat := by
  induction rcs generalizing m with
  | nil => rfl
  | cons rc rcs ih =>
    simp only [List.mem_cons, forall_eq_or_imp] at h
    rw [storeSamples, ih h.2, Memory.readByte_store_of_not_mem _ h.1]

/-- IDCT's samples go to its write set only. -/
theorem readByte_idctMem_of_not_mem_writeBytes {s : State} {q : Fin 3} {lshift raw : Bool} {a : Word}
    (h : a ∉ writeBytes (idctPlan s)) :
    Memory.readByte (idctMem s q lshift raw) a.toNat = Memory.readByte s.mem a.toNat := by
  refine readByte_storeSamples_of_not_mem fun rc hrc hmem => h (mem_writeBytes.2 ?_)
  have hw : (⟨.write, idctDst s rc, 2, 0⟩ : Access) ∈ idctPlan s :=
    List.mem_append_right _ (List.mem_map.2 ⟨rc, hrc, rfl⟩)
  exact ⟨_, hw, rfl, hmem⟩

/-! ### The frame -/

/-- `t` differs from `s` only in what the rule of the command `i` names, and in STATUS, RESULT, ERR_ADDR and the model's
own draw counter (10_state R64). -/
structure RuleFrame (i : Instr) (s t : State) : Prop where
  params : SameParameters s t
  mem : SameMemoryOutside (writeSet i s) s t
  pred : instrOpcode i ∉ [Opcode.resetDc, .restart, .decodeBlock] → t.pred = s.pred
  reader : instrOpcode i ∉ [Opcode.restart, .decodeBlock] →
    t.bsAddr = s.bsAddr ∧ t.bitbuf = s.bitbuf ∧ t.bitcnt = s.bitcnt
  quant : instrOpcode i ≠ .loadDqt → SameQuant s t
  huff : instrOpcode i ≠ .loadDht → SameHuff s t

theorem RuleFrame.refl (i : Instr) (s : State) : RuleFrame i s s where
  params := by constructor <;> rfl
  mem _ _ := rfl
  pred _ := rfl
  reader _ := ⟨rfl, rfl, rfl⟩
  quant _ := ⟨rfl, rfl⟩
  huff _ := ⟨rfl, rfl⟩

theorem RuleFrame.complete {i : Instr} {s t : State} (h : RuleFrame i s t) (v : Word) :
    RuleFrame i s (t.complete v) where
  params := { h.params with }
  mem := h.mem
  pred := h.pred
  reader := h.reader
  quant hi := { h.quant hi with }
  huff hi := { h.huff hi with }

theorem RuleFrame.raise {i : Instr} {s t : State} (h : RuleFrame i s t) (code : ErrCode) (a : Word) :
    RuleFrame i s (t.raise code a) where
  params := { h.params with }
  mem := h.mem
  pred := h.pred
  reader := h.reader
  quant hi := { h.quant hi with }
  huff hi := { h.huff hi with }

/-- Any command may write its write set, and draw free values. -/
theorem RuleFrame.of_mem {i : Instr} {s : State} {m : Memory} (d : Nat)
    (h : ∀ a : Word, a ∉ writeSet i s → Memory.readByte m a.toNat = Memory.readByte s.mem a.toNat) :
    RuleFrame i s { s with mem := m, draws := d } where
  params := by constructor <;> rfl
  mem := h
  pred _ := rfl
  reader _ := ⟨rfl, rfl, rfl⟩
  quant _ := ⟨rfl, rfl⟩
  huff _ := ⟨rfl, rfl⟩

/-- DECODE_BLOCK may set the predictors and the bit reader too. -/
theorem RuleFrame.of_entropy {comp : BitVec 2} {dcsel acsel : Bool} {s : State} {m : Memory} (pred : Vector Half 3)
    (addr : Word) (buf : Byte) (cnt d : Nat)
    (h : ∀ a : Word, a ∉ writeSet (.decodeBlock comp dcsel acsel) s →
      Memory.readByte m a.toNat = Memory.readByte s.mem a.toNat) :
    RuleFrame (.decodeBlock comp dcsel acsel) s
      { s with pred := pred, bsAddr := addr, bitbuf := buf, bitcnt := cnt, mem := m, draws := d } where
  params := by constructor <;> rfl
  mem := h
  pred hi := absurd (by simp [instrOpcode]) hi
  reader hi := absurd (by simp [instrOpcode]) hi
  quant _ := ⟨rfl, rfl⟩
  huff _ := ⟨rfl, rfl⟩

/-! ### Prologues and bodies -/

/-- A body over an access list keeps the frame if its two ends do. -/
theorem perform_ruleFrame {i : Instr} {s finished stopped t : State} {before plan : List Access}
    (h : perform s before plan finished stopped = .next t) (hf : RuleFrame i s finished) (hs : RuleFrame i s stopped) :
    RuleFrame i s t := by
  obtain ⟨_, rfl⟩ | ⟨x, _, _, rfl⟩ := perform_next h
  · exact hf
  · exact hs.raise _ _

/-- A command keeps the frame if its body does, where the prologue lets it run. -/
theorem afterPrologue_ruleFrame {i : Instr} {s t : State} {p : Prologue} {body : Answer}
    (h : afterPrologue p s body = .next t) (hb : p = .pass → body = .next t → RuleFrame i s t) : RuleFrame i s t := by
  obtain ⟨hp, hbody⟩ | ⟨_, rfl⟩ | ⟨code, a, _, rfl⟩ := afterPrologue_next h
  · exact hb hp hbody
  · exact (RuleFrame.refl i s).complete _
  · exact (RuleFrame.refl i s).raise _ _

/-- The rectangle commands and IDCT: a command that only writes memory, within the write set of its plan. -/
theorem planned_ruleFrame {i : Instr} {s t : State} {p : Prologue} {plan : List Access} {m : Memory}
    (hw : writeSet i s = writeBytes (planFootprint p plan).writes)
    (hm : ∀ a : Word, a ∉ writeBytes plan → Memory.readByte m a.toNat = Memory.readByte s.mem a.toNat)
    (h : afterPrologue p s (perform s [] plan ((s.setMem m).complete 0#32) (s.drawWrites plan)) = .next t) :
    RuleFrame i s t := by
  refine afterPrologue_ruleFrame h fun hp hbody => ?_
  rw [hp, writeBytes_planFootprint_pass] at hw
  refine perform_ruleFrame hbody ?_ ?_
  · exact (RuleFrame.of_mem s.draws (hw ▸ hm)).complete _
  · have hdraw := fun a => readByte_drawWrites_of_not_mem (plan := plan) (s := s) (a := a)
    obtain ⟨m', d, heq⟩ := drawWrites_frame plan s
    rw [heq] at hdraw ⊢
    exact RuleFrame.of_mem d (hw ▸ hdraw)

theorem execRect_ruleFrame {i : Instr} {s t : State} {p : Prologue} {ps : List Pixel}
    (hw : writeSet i s = writeBytes (planFootprint p (rectPlan ps)).writes) (h : execRect s p ps = .next t) :
    RuleFrame i s t :=
  planned_ruleFrame hw (fun _ => readByte_runPixels_of_not_mem_writeBytes) h

/-! ### The commands with rules of their own -/

theorem execResetDc_ruleFrame {s t : State} (h : execResetDc s = .next t) : RuleFrame .resetDc s t := by
  have hclear : RuleFrame .resetDc s s.clearPred :=
    { RuleFrame.refl .resetDc s with
      params := by constructor <;> rfl
      pred := fun hi => absurd (by simp [instrOpcode]) hi
      quant := fun _ => ⟨rfl, rfl⟩
      huff := fun _ => ⟨rfl, rfl⟩ }
  cases h
  exact hclear.complete _

theorem execRestart_ruleFrame {s t : State} (h : execRestart s = .next t) : RuleFrame .restart s t := by
  have hskip : RuleFrame .restart s ((s.setReader (s.bsAddr + 2#32) 0#8 0).clearPred) :=
    { RuleFrame.refl .restart s with
      params := by constructor <;> rfl
      pred := fun hi => absurd (by simp [instrOpcode]) hi
      reader := fun hi => absurd (by simp [instrOpcode]) hi
      quant := fun _ => ⟨rfl, rfl⟩
      huff := fun _ => ⟨rfl, rfl⟩ }
  unfold execRestart at h
  split at h <;> cases h
  · exact (RuleFrame.refl _ s).raise _ _
  · exact hskip.complete _

theorem execLoadDqt_ruleFrame {s t : State} (h : execLoadDqt s = .next t) : RuleFrame .loadDqt s t := by
  obtain ⟨qt, qv, d, hend⟩ := execLoadDqt_next h
  have hload : RuleFrame .loadDqt s { s with qt := qt, qv := qv, draws := d } :=
    { RuleFrame.refl .loadDqt s with
      params := by constructor <;> rfl
      quant := fun hi => absurd rfl hi
      huff := fun _ => ⟨rfl, rfl⟩ }
  obtain ⟨v, rfl⟩ | ⟨code, a, rfl⟩ := hend
  · exact hload.complete v
  · exact hload.raise code a

theorem execLoadDht_ruleFrame {s t : State} (h : execLoadDht s = .next t) : RuleFrame .loadDht s t := by
  obtain ⟨ht, hv, d, hend⟩ := execLoadDht_next h
  have hload : RuleFrame .loadDht s { s with ht := ht, hv := hv, draws := d } :=
    { RuleFrame.refl .loadDht s with
      params := by constructor <;> rfl
      quant := fun _ => ⟨rfl, rfl⟩
      huff := fun hi => absurd rfl hi }
  obtain ⟨v, rfl⟩ | ⟨code, a, rfl⟩ := hend
  · exact hload.complete v
  · exact hload.raise code a

/-- A legal DECODE_BLOCK past its prologue may write every coefficient of its plan. -/
theorem writeSet_decodeBlock {comp : BitVec 2} {dcsel acsel : Bool} {s : State} {c : Fin 3} {a : Word}
    (hc : index3 comp = some c) (hp : decodePrologue s (dcSlot dcsel) (acSlot acsel) = .pass)
    (h : a ∉ writeSet (.decodeBlock comp dcsel acsel) s) : a ∉ writeBytes (decodePlan s) := by
  intro hmem
  apply h
  obtain ⟨x, hx, hwrite, hcovers⟩ := mem_writeBytes.1 hmem
  simp only [writeSet, footprint, hc, hp, writeBytes_planFootprint_pass]
  exact mem_writeBytes.2 ⟨x, List.mem_append_right _ hx, hwrite, hcovers⟩

theorem execDecodeBlock_ruleFrame {comp : BitVec 2} {dcsel acsel : Bool} {s t : State}
    (h : execDecodeBlock comp dcsel acsel s = .next t) : RuleFrame (.decodeBlock comp dcsel acsel) s t := by
  unfold execDecodeBlock at h
  split at h
  case h_1 =>
    cases h
    exact (RuleFrame.refl _ s).raise _ _
  case h_2 c hc =>
    refine afterPrologue_ruleFrame h fun hp hbody => ?_
    have hstopped : RuleFrame (.decodeBlock comp dcsel acsel) s (decodeStopped s c) := by
      have hdraw := fun a => readByte_drawWrites_of_not_mem (plan := decodePlan s) (s := s.drawEntropy c) (a := a)
      obtain ⟨m, d, heq⟩ := drawWrites_frame (decodePlan s) (s.drawEntropy c)
      rw [heq] at hdraw
      rw [decodeStopped, heq]
      exact RuleFrame.of_entropy _ _ _ _ d fun a ha => hdraw a (writeSet_decodeBlock hc hp ha)
    unfold decodeBody at hbody
    split at hbody
    · obtain ⟨code, a, _, rfl⟩ := stopWith_next hbody
      exact hstopped.raise _ _
    · rename_i b r _
      refine perform_ruleFrame hbody (RuleFrame.complete ?_ _) hstopped
      exact RuleFrame.of_entropy _ _ _ _ s.draws fun a ha =>
        readByte_storeBlock_of_not_mem_writeBytes b.z (writeSet_decodeBlock hc hp ha)

theorem execIdct_ruleFrame {qsel : BitVec 2} {lshift raw : Bool} {s t : State}
    (h : execIdct qsel lshift raw s = .next t) : RuleFrame (.idct qsel lshift raw) s t := by
  unfold execIdct at h
  split at h
  case h_1 =>
    cases h
    exact (RuleFrame.refl _ s).raise _ _
  case h_2 q hq =>
    have hw : writeSet (.idct qsel lshift raw) s =
        writeBytes (planFootprint (idctPrologue s q raw) (idctPlan s)).writes := by
      simp only [writeSet, footprint, hq]
    exact planned_ruleFrame hw (fun _ => readByte_idctMem_of_not_mem_writeBytes) h

/-- Every command that answers a next state keeps to its rule. -/
theorem exec_ruleFrame {i : Instr} {s t : State} (h : exec i s = .next t) : RuleFrame i s t := by
  cases i with
  | nop => cases h; exact (RuleFrame.refl _ s).complete _
  | resetDc => exact execResetDc_ruleFrame h
  | restart => exact execRestart_ruleFrame h
  | loadDqt => exact execLoadDqt_ruleFrame h
  | loadDht => exact execLoadDht_ruleFrame h
  | decodeBlock comp dcsel acsel => exact execDecodeBlock_ruleFrame h
  | idct qsel lshift raw => exact execIdct_ruleFrame h
  | upsample hr vr => exact execRect_ruleFrame rfl h
  | ycc2rgb gray => exact execRect_ruleFrame rfl h
  | cvt565To8888 => exact execRect_ruleFrame rfl h
  | cvt8888To565 => exact execRect_ruleFrame rfl h
  | blend sfmt dfmt => exact execRect_ruleFrame rfl h

/-- Settles O58, by the frame of each command. -/
theorem commandsChangeOnlyWhatTheirRulesName : Obligations.CommandsChangeOnlyWhatTheirRulesName := by
  intro i s t hnext
  obtain ⟨hparams, hmem, hpred, hreader, hquant, hhuff⟩ := exec_ruleFrame hnext
  exact ⟨hparams, hmem, hpred, hreader, hquant, hhuff⟩

end Sys2Proof.Machine
end

section
/-! PROOF. Pixel formats: the channels of a pixel word, their packing and their expansion (20_memory R88 to R94). -/

namespace Sys2Proof.Machine

/-! ### Packing and the channels of a word -/

/-- Concatenated bit fields as arithmetic: the upper field is scaled by the width of the lower one. -/
theorem toNat_append_eq_mul_add {m n : Nat} (x : BitVec m) (y : BitVec n) :
    (x ++ y).toNat = x.toNat * 2 ^ n + y.toNat := by
  rw [BitVec.toNat_append, ← Nat.shiftLeft_add_eq_or_of_lt y.isLt, Nat.shiftLeft_eq]

theorem pack565_toNat {r g b : Nat} (hr : r < 256) (hg : g < 256) (hb : b < 256) :
    (pack565 r g b).toNat = r / 8 * 2 ^ 11 + g / 4 * 2 ^ 5 + b / 8 := by
  simp only [pack565, toNat_append_eq_mul_add, BitVec.toNat_ofNat, Nat.shiftRight_eq_div_pow]
  omega

theorem pack8888_toNat {a r g b : Nat} (ha : a < 256) (hr : r < 256) (hg : g < 256) (hb : b < 256) :
    (pack8888 a r g b).toNat = a * 2 ^ 24 + r * 2 ^ 16 + g * 2 ^ 8 + b := by
  simp only [pack8888, toNat_append_eq_mul_add, BitVec.toNat_ofNat]
  omega

theorem redOf_eq (p : Word) : redOf p = p.toNat / 2 ^ 16 % 256 := by
  rw [redOf, BitVec.extractLsb'_toNat, Nat.shiftRight_eq_div_pow]

theorem greenOf_eq (p : Word) : greenOf p = p.toNat / 2 ^ 8 % 256 := by
  rw [greenOf, BitVec.extractLsb'_toNat, Nat.shiftRight_eq_div_pow]

theorem blueOf_eq (p : Word) : blueOf p = p.toNat % 256 := by
  rw [blueOf, BitVec.extractLsb'_toNat, Nat.shiftRight_zero]

theorem to565_eq (p : Word) :
    to565 p = pack565 (p.toNat / 2 ^ 16 % 256) (p.toNat / 2 ^ 8 % 256) (p.toNat % 256) := by
  rw [to565, redOf_eq, greenOf_eq, blueOf_eq]

/-- Packing an ARGB8888 word again drops its alpha and takes its three channels. -/
theorem to565_pack8888 {a r g b : Nat} (ha : a < 256) (hr : r < 256) (hg : g < 256) (hb : b < 256) :
    to565 (pack8888 a r g b) = pack565 r g b := by
  have hword := pack8888_toNat ha hr hg hb
  have hred : (pack8888 a r g b).toNat / 2 ^ 16 % 256 = r := by omega
  have hgreen : (pack8888 a r g b).toNat / 2 ^ 8 % 256 = g := by omega
  have hblue : (pack8888 a r g b).toNat % 256 = b := by omega
  rw [to565_eq, hred, hgreen, hblue]

/-! ### Expansion -/

theorem expand5_replicate {v : Nat} (hv : v < 32) : expand5 .replicate v = v * 8 + v / 4 := by
  have hlow : v >>> 2 < 2 ^ 3 := by rw [Nat.shiftRight_eq_div_pow]; omega
  rw [expand5, ← Nat.shiftLeft_add_eq_or_of_lt hlow, Nat.shiftLeft_eq, Nat.shiftRight_eq_div_pow]

theorem expand5_shift (v : Nat) : expand5 .shift v = v * 8 := Nat.shiftLeft_eq v 3

theorem expand6_replicate {v : Nat} (hv : v < 64) : expand6 .replicate v = v * 4 + v / 16 := by
  have hlow : v >>> 4 < 2 ^ 2 := by rw [Nat.shiftRight_eq_div_pow]; omega
  rw [expand6, ← Nat.shiftLeft_add_eq_or_of_lt hlow, Nat.shiftLeft_eq, Nat.shiftRight_eq_div_pow]

theorem expand6_shift (v : Nat) : expand6 .shift v = v * 4 := Nat.shiftLeft_eq v 2

/-- Under either setting a 5-bit channel stays in the top bits of its byte, which is why truncation recovers it. -/
theorem expand5_div_eight (e : Rgb565Expand) {v : Nat} (hv : v < 32) : expand5 e v / 8 = v := by
  cases e with
  | replicate => rw [expand5_replicate hv]; omega
  | shift => rw [expand5_shift]; omega

/-- The same for a 6-bit channel. -/
theorem expand6_div_four (e : Rgb565Expand) {v : Nat} (hv : v < 64) : expand6 e v / 4 = v := by
  cases e with
  | replicate => rw [expand6_replicate hv]; omega
  | shift => rw [expand6_shift]; omega

theorem expand5_lt (e : Rgb565Expand) {v : Nat} (hv : v < 32) : expand5 e v < 256 := by
  have := expand5_div_eight e hv
  omega

theorem expand6_lt (e : Rgb565Expand) {v : Nat} (hv : v < 64) : expand6 e v < 256 := by
  have := expand6_div_four e hv
  omega

/-! ### Widening a pixel -/

theorem to8888_eq (e : Rgb565Expand) (p : Half) :
    to8888 e p = pack8888 255 (expand5 e (p.toNat / 2 ^ 11)) (expand6 e (p.toNat / 2 ^ 5 % 64))
      (expand5 e (p.toNat % 32)) := by
  have hred : (p.extractLsb' 11 5).toNat = p.toNat / 2 ^ 11 := by
    rw [BitVec.extractLsb'_toNat, Nat.shiftRight_eq_div_pow]
    omega
  have hgreen : (p.extractLsb' 5 6).toNat = p.toNat / 2 ^ 5 % 64 := by
    rw [BitVec.extractLsb'_toNat, Nat.shiftRight_eq_div_pow]
  have hblue : (p.extractLsb' 0 5).toNat = p.toNat % 32 := by
    rw [BitVec.extractLsb'_toNat, Nat.shiftRight_zero]
  rw [to8888, hred, hgreen, hblue]

theorem to8888_toNat (e : Rgb565Expand) (p : Half) :
    (to8888 e p).toNat = 255 * 2 ^ 24 + expand5 e (p.toNat / 2 ^ 11) * 2 ^ 16 +
      expand6 e (p.toNat / 2 ^ 5 % 64) * 2 ^ 8 + expand5 e (p.toNat % 32) := by
  rw [to8888_eq]
  exact pack8888_toNat (by decide) (expand5_lt e (by omega)) (expand6_lt e (by omega)) (expand5_lt e (by omega))

/-- Truncation recovers each of the three expanded channels, and they make up the pixel. -/
theorem to565_to8888 (e : Rgb565Expand) (p : Half) : to565 (to8888 e p) = p := by
  have hr : p.toNat / 2 ^ 11 < 32 := by omega
  have hg : p.toNat / 2 ^ 5 % 64 < 64 := by omega
  have hb : p.toNat % 32 < 32 := by omega
  apply BitVec.eq_of_toNat_eq
  rw [to8888_eq, to565_pack8888 (by decide) (expand5_lt e hr) (expand6_lt e hg) (expand5_lt e hb),
    pack565_toNat (expand5_lt e hr) (expand6_lt e hg) (expand5_lt e hb),
    expand5_div_eight e hr, expand6_div_four e hg, expand5_div_eight e hb]
  omega

/-- Settles O53: packing, expansion and widening as arithmetic, then the round trip. -/
theorem expansionRoundTrips : Obligations.ExpansionRoundTrips :=
  ⟨fun v hv => ⟨expand5_replicate hv, expand5_shift v⟩, fun v hv => ⟨expand6_replicate hv, expand6_shift v⟩,
    rfl, rfl, rfl, rfl, fun _ _ _ => pack565_toNat, to565_eq, fun e p => ⟨to8888_toNat e p, to565_to8888 e p⟩⟩

end Sys2Proof.Machine
end

section
/-! PROOF. The opcode map, the words that are no command, and the illegal field values (30_encoding R118 to R122). -/

namespace Sys2Proof.Machine

open Sys2Proof.Claims

/-! ### OP bytes -/

@[simp] theorem opcodeOf_opcodeByte (op : Opcode) : opcodeOf (opcodeByte op) = some op := by cases op <;> rfl

theorem opcodeByte_injective {a b : Opcode} (h : opcodeByte a = opcodeByte b) : a = b :=
  Option.some.inj (by rw [← opcodeOf_opcodeByte a, h, opcodeOf_opcodeByte])

/-- An OP byte names an opcode only if it is the opcode's byte: a check of all 256 bytes. -/
theorem eq_opcodeByte_of_opcodeOf {b : Byte} {op : Opcode} (h : opcodeOf b = some op) : b = opcodeByte op := by
  have hall : ∀ b : Byte, ∀ op ∈ opcodeOf b, b = opcodeByte op := by decide
  exact hall b op h

/-- No opcode of the map has a reserved OP value. -/
theorem not_reservedOp_opcodeByte (op : Opcode) : ¬ReservedOp (opcodeByte op).toNat := by
  unfold ReservedOp
  cases op <;> decide

theorem opByte_toNat (w : Word) : (w.extractLsb' 0 8).toNat = w.toNat % 256 := by
  rw [BitVec.extractLsb'_toNat, Nat.shiftRight_zero]

/-- The bits of a word under 0xFF are its OP byte. -/
theorem and_0xFF_eq_setWidth (w : Word) : w &&& 0xFF#32 = (w.extractLsb' 0 8).setWidth 32 := by
  apply BitVec.eq_of_toNat_eq
  rw [BitVec.toNat_and, BitVec.toNat_setWidth, opByte_toNat, Nat.mod_eq_of_lt (b := 2 ^ 32) (by omega)]
  exact Nat.and_two_pow_sub_one_eq_mod w.toNat 8

theorem and_0xFF_eq_iff {w : Word} {b : Byte} : w &&& 0xFF#32 = b.setWidth 32 ↔ w.extractLsb' 0 8 = b := by
  rw [and_0xFF_eq_setWidth]
  refine ⟨fun h => ?_, fun h => by rw [h]⟩
  simpa using congrArg (BitVec.setWidth 8) h

/-! ### Masks and matches -/

/-- The reserved bits of a format lie above OP. -/
theorem setWidth_and_reservedMask (b : Byte) (f : Format) : b.setWidth 32 &&& reservedMask f = 0#32 :=
  setWidth_and_eq_zero b (by cases f <;> decide)

/-- The bits under a mask of OP and a format's reserved bits are an OP byte exactly when OP is that byte and no reserved
bit is set. -/
theorem and_mask_eq_iff {w : Word} {b : Byte} {f : Format} :
    w &&& (0xFF#32 ||| reservedMask f) = b.setWidth 32 ↔ w.extractLsb' 0 8 = b ∧ w &&& reservedMask f = 0#32 := by
  rw [← and_0xFF_eq_iff, BitVec.and_or_distrib_left]
  constructor
  · intro h
    have hreserved : w &&& reservedMask f = 0#32 :=
      calc w &&& reservedMask f
          = (w &&& 0xFF#32 ||| w &&& reservedMask f) &&& reservedMask f := by
            rw [and_0xFF_eq_setWidth, BitVec.and_or_distrib_right, setWidth_and_reservedMask, BitVec.zero_or,
              BitVec.and_assoc, BitVec.and_self]
        _ = 0#32 := by rw [h, setWidth_and_reservedMask]
    rw [hreserved, BitVec.or_zero] at h
    exact ⟨h, hreserved⟩
  · rintro ⟨hop, hreserved⟩
    rw [hop, hreserved, BitVec.or_zero]

/-- Each row's match is its opcode's byte, and its mask covers OP and the reserved bits of the opcode's format. -/
theorem opcodeMap_row : ∀ row ∈ opcodeMap,
    row.2.1 = (opcodeByte row.1).setWidth 32 ∧ row.2.2 = 0xFF#32 ||| reservedMask (formatOf row.1) := by decide

/-! ### The decoder's answers -/

@[simp] theorem instrOpcode_extract (w : Word) (op : Opcode) : instrOpcode (extract w op) = op := by cases op <;> rfl

/-- A word decodes to a command with a given opcode exactly when OP is the opcode's byte and no reserved bit is set. -/
theorem exists_decode_iff {w : Word} {op : Opcode} :
    (∃ i, decode w = .ok i ∧ instrOpcode i = op) ↔
      w.extractLsb' 0 8 = opcodeByte op ∧ w &&& reservedMask (formatOf op) = 0#32 := by
  constructor
  · rintro ⟨i, hi, rfl⟩
    unfold decode at hi
    split at hi
    case h_1 => cases hi
    case h_2 op hop =>
      split at hi <;> cases hi
      rw [instrOpcode_extract]
      exact ⟨eq_opcodeByte_of_opcodeOf hop, ‹_›⟩
  · rintro ⟨hop, hreserved⟩
    refine ⟨extract w op, ?_, instrOpcode_extract w op⟩
    simp [decode, hop, hreserved]

/-- Settles O4: a row's mask and match say what the decoder checks. -/
theorem wordSelectsItsOpcodeByMaskAndMatch : Obligations.WordSelectsItsOpcodeByMaskAndMatch := by
  intro w row hrow
  obtain ⟨hmatch, hmask⟩ := opcodeMap_row row hrow
  rw [hmatch, hmask, and_mask_eq_iff, exists_decode_iff]

/-- A word that decodes has the OP byte of its command. -/
theorem opByte_of_decode {w : Word} {i : Instr} (h : decode w = .ok i) :
    w.extractLsb' 0 8 = opcodeByte (instrOpcode i) := (exists_decode_iff.1 ⟨i, h, rfl⟩).1

theorem decode_ne_ok_of_reservedOp {w : Word} (h : ReservedOp (w.toNat % 256)) (i : Instr) : decode w ≠ .ok i := by
  intro hi
  rw [← opByte_toNat, opByte_of_decode hi] at h
  exact not_reservedOp_opcodeByte _ h

theorem decode_ne_ok_of_reservedBitSet {w : Word} (h : ReservedBitSet w) (i : Instr) : decode w ≠ .ok i := by
  intro hi
  obtain ⟨row, hrow, hop, hne⟩ := h
  have hbyte : opcodeByte (instrOpcode i) = opcodeByte row.1 := by
    rw [← opByte_of_decode hi, ← and_0xFF_eq_iff, hop, (opcodeMap_row row hrow).1]
  exact hne ((wordSelectsItsOpcodeByMaskAndMatch w row hrow).2 ⟨i, hi, opcodeByte_injective hbyte⟩)

/-! ### Illegal words -/

/-- After acceptance of a word the next step executes it. -/
theorem step_withFetchWord (s : State) (w : Word) : step (s.withFetchWord 32 w.toNat) = execute (s.accept w) := by
  rw [State.withFetchWord, Nat.mod_eq_of_lt w.isLt, BitVec.ofNat_toNat, BitVec.setWidth_eq]
  rfl

theorem execute_of_decode_ne_ok {s : State} (h : ∀ i, decode s.cmd ≠ .ok i) :
    execute s = .next (s.raise .illegal 0#32) := by
  unfold execute
  split
  · exact absurd ‹_› (h _)
  · rfl

/-- Settles O5: such a word does not decode. -/
theorem reservedWordRaisesIllegal : Obligations.ReservedWordRaisesIllegal := by
  intro s w h
  have hdecode : ∀ i, decode w ≠ .ok i := h.elim decode_ne_ok_of_reservedOp decode_ne_ok_of_reservedBitSet
  rw [step_withFetchWord, execute_of_decode_ne_ok hdecode]
  rfl

/-! ### Illegal field values -/

theorem execRect_error (s : State) (code : ErrCode) (a : Word) (ps : List Pixel) :
    execRect s (.error code a) ps = .next (s.raise code a) := rfl

theorem upsamplePrologue_illegal (s : State) {hr vr : BitVec 2} (h : hr = 3#2 ∨ vr = 3#2) :
    upsamplePrologue s hr vr = .error .illegal 0#32 := if_pos h

theorem upsamplePrologue_sampling (s : State) {hr vr : BitVec 2} (hhr : hr ≠ 3#2) (hvr : vr ≠ 3#2)
    (h : hr = 0#2 ∨ vr = 0#2) : upsamplePrologue s hr vr = .error .sampling 0#32 := by
  rw [upsamplePrologue, if_neg (not_or.2 ⟨hhr, hvr⟩), if_pos h]

/-- Settles O18: the first check of each prologue that reads a two-bit field. -/
theorem illegalFieldValuesRaise : Obligations.IllegalFieldValuesRaise := by
  intro s d a l r hr vr
  refine ⟨rfl, rfl, fun h => ?_, fun hhr hvr h => ?_⟩
  · rw [exec, execUpsample, upsamplePrologue_illegal s h, execRect_error]
  · rw [exec, execUpsample, upsamplePrologue_sampling s hhr hvr h, execRect_error]

end Sys2Proof.Machine
end

section
/-! PROOF. The command cycle and the control commands: a rectangle command of zero area, acceptance, NOP and RESET_DC
(40_control R140 to R146). -/

namespace Sys2Proof.Machine

open Sys2Proof.Claims

/-! ### Rectangle commands and zero area -/

theorem yccRegs_eq_checkedRegs (s : State) (gray : Bool) : yccRegs s gray = checkedRegs s (.ycc2rgb gray) := by
  cases gray <;> rfl

/-- Legal ratios pass the first two checks of UPSAMPLE (40_control R142). -/
theorem upsamplePrologue_legal (s : State) {hr vr : BitVec 2} (h : WellFormed (.upsample hr vr) = true) :
    upsamplePrologue s hr vr = rectPrologue s (checkedRegs s (.upsample hr vr)) := by
  have hlegal : ∀ hr vr : BitVec 2, WellFormed (.upsample hr vr) = true →
      ¬(hr = 3#2 ∨ vr = 3#2) ∧ ¬(hr = 0#2 ∨ vr = 0#2) := by decide
  obtain ⟨hthree, hzero⟩ := hlegal hr vr h
  rw [upsamplePrologue, if_neg hthree, if_neg hzero]
  rfl

/-- A rectangle command with legal fields is its zero-area and alignment checks, then its pixel steps. -/
theorem exec_eq_execRect {s : State} {i : Instr} {ps : List Pixel} (hwf : WellFormed i = true)
    (hrect : rectOf s i = some ps) : exec i s = execRect s (rectPrologue s (checkedRegs s i)) ps := by
  cases i with
  | upsample hr vr => cases hrect; rw [← upsamplePrologue_legal s hwf]; rfl
  | ycc2rgb gray => cases hrect; rw [← yccRegs_eq_checkedRegs]; rfl
  | cvt565To8888 => cases hrect; rfl
  | cvt8888To565 => cases hrect; rfl
  | blend sf df => cases hrect; rfl
  | nop | resetDc | restart | loadDqt | loadDht | decodeBlock | idct => cases hrect

theorem rectPrologue_zeroArea {s : State} (regs : List (Word × Nat)) (h : width s = 0 ∨ height s = 0) :
    rectPrologue s regs = .zeroArea := if_pos h

/-- Settles O21: the zero-area check comes first, and its outcome drops the pixel steps. -/
theorem zeroAreaCompletesWithoutAccess : Obligations.ZeroAreaCompletesWithoutAccess := by
  intro s i hwf hrect harea
  obtain ⟨ps, hps⟩ := Option.ne_none_iff_exists'.1 hrect
  rw [exec_eq_execRect hwf hps, rectPrologue_zeroArea _ harea, execRect, afterPrologue_zeroArea]
  rfl

/-! ### The host's write to a register -/

theorem windowOffset_base_add (s : State) {off : Nat} (h : WindowOffset off) :
    windowOffset s (s.cfg.engineBase + BitVec.ofNat 32 off) = off := by
  obtain ⟨hlt, -⟩ := h
  rw [windowOffset, add_sub_cancel_left, BitVec.toNat_ofNat, Nat.mod_eq_of_lt (by omega)]

theorem inWindow_base_add (s : State) {off : Nat} (h : WindowOffset off) :
    inWindow s.cfg (s.cfg.engineBase + BitVec.ofNat 32 off) = true :=
  decide_eq_true ((windowOffset_base_add s h).trans_lt h.1)

/-- A 32-bit host write at an offset of the window is the write of that register (10_state R32, 20_memory R85). -/
theorem hostWrite_register (s : State) {off : Nat} (h : WindowOffset off) (v : Word) :
    hostWrite s (s.cfg.engineBase + BitVec.ofNat 32 off) 4 v.toNat = .next (writeOffset s off v) := by
  have htouches : touchesWindow s (s.cfg.engineBase + BitVec.ofNat 32 off) 4 = true := by
    simp [touchesWindow, bytesFrom, inWindow_base_add s h]
  have hlegal : legalRegAccess s (s.cfg.engineBase + BitVec.ofNat 32 off) 4 = true := by
    simp [legalRegAccess, inWindow_base_add s h, windowOffset_base_add s h, h.2]
  rw [hostWrite, if_pos htouches, if_pos hlegal, windowOffset_base_add s h, BitVec.ofNat_toNat, BitVec.setWidth_eq]

theorem step_of_hostWrites {s : State} {off : Nat} {v : Word} {ts : List Turn} (hoff : WindowOffset off)
    (h : HostWrites s off v ts) : step s = .next (writeOffset { s with turns := ts } off v) := by
  unfold HostWrites at h
  rw [step, h]
  exact hostWrite_register { s with turns := ts } hoff v

theorem State.unlessBusy_of_idle {s : State} (t : State) (h : s.busy = false) : s.unlessBusy t = t :=
  if_neg (by simp [h])

theorem State.unlessBusy_of_busy {s : State} (t : State) (h : s.busy = true) : s.unlessBusy t = { s with werr := true } :=
  if_pos h

theorem writeOffset_cmd (s : State) (w : Word) : writeOffset s 0x010 w = s.unlessBusy (s.accept w) := rfl

/-- Settles O8: the step is the write of CMD, which BUSY blocks. -/
theorem acceptanceOfACommandWord : Obligations.AcceptanceOfACommandWord := by
  intro s w ts hwrites
  rw [step_of_hostWrites ⟨by decide, by decide⟩ hwrites, writeOffset_cmd]
  constructor
  · intro hidle
    exact congrArg Host.Outcome.next (State.unlessBusy_of_idle (s := { s with turns := ts }) _ hidle)
  · intro hbusy
    exact congrArg Host.Outcome.next (State.unlessBusy_of_busy (s := { s with turns := ts }) _ hbusy)

/-! ### The only word of a command without operands -/

/-- A command of format N, which has no operand bits, has its opcode's byte as its only word (30_encoding R111, R121). -/
theorem eq_opcodeByte_of_decode {w : Word} {i : Instr} (h : decode w = .ok i) (hn : formatOf (instrOpcode i) = .n) :
    w = (opcodeByte (instrOpcode i)).setWidth 32 := by
  have hall : 0xFF#32 ||| reservedMask (formatOf (instrOpcode i)) = BitVec.allOnes 32 := by rw [hn]; decide
  have hmask := and_mask_eq_iff.2 (exists_decode_iff.1 ⟨i, h, rfl⟩)
  rwa [hall, BitVec.and_allOnes] at hmask

/-- Any other word with the OP byte of such a command raises ILLEGAL. -/
theorem execute_illegal_of_formatN {s : State} {op : Opcode} (hn : formatOf op = .n)
    (hop : s.cmd.extractLsb' 0 8 = opcodeByte op) (hne : s.cmd ≠ (opcodeByte op).setWidth 32) :
    execute s = .next (s.raise .illegal 0#32) := by
  refine execute_of_decode_ne_ok fun i hi => hne ?_
  obtain rfl : instrOpcode i = op := opcodeByte_injective ((opByte_of_decode hi).symm.trans hop)
  exact eq_opcodeByte_of_decode hi hn

theorem execute_of_decode_ok {s : State} {i : Instr} (h : decode s.cmd = .ok i) : execute s = exec i s := by
  rw [execute, h]

/-! ### NOP -/

theorem exec_nop (s : State) : exec .nop s = .next (s.complete 0#32) := rfl

/-- With no other flag set, STATUS reads DONE alone. -/
theorem statusWord_done_alone {s : State} (hbusy : s.busy = false) (hdone : s.done = true) (herr : s.err = false)
    (hwerr : s.werr = false) (hcode : s.errcode = 0#4) : statusWord s = 0x00000002#32 := by
  rw [statusWord, hbusy, hdone, herr, hwerr, hcode]
  rfl

/-- Settles O24. -/
theorem nopOnlyCompletes : Obligations.NopOnlyCompletes := by
  refine ⟨exec_nop, rfl, fun s => execute_illegal_of_formatN (op := .nop) rfl, fun s hwerr => ?_⟩
  have hdecode : decode 0#32 = .ok .nop := by decide
  refine ⟨(s.accept 0#32).complete 0#32, ?_, statusWord_done_alone rfl rfl rfl hwerr rfl, rfl⟩
  exact (step_withFetchWord s 0#32).trans (execute_of_decode_ok (s := s.accept 0#32) hdecode)

/-! ### RESET_DC -/

theorem exec_resetDc (s : State) : exec .resetDc s = .next (s.clearPred.complete 0#32) := rfl

theorem State.clearPred_pred_get (s : State) (c : Fin 3) : s.clearPred.pred.get c = 0#16 := by
  simp [Vector.get]

/-- DC_PREDc reads its predictor, sign-extended (10_state R52). -/
theorem readOffset_dcPred (s : State) (c : Fin 3) : readOffset s (0x050 + 4 * c.val) = (s.pred.get c).signExtend 32 := by
  fin_cases c <;> rfl

/-- The offsets of DC_PRED0 to DC_PRED2 (10_state R32). -/
theorem exists_dcPred_offset : ∀ off ∈ [0x050, 0x054, 0x058], ∃ c : Fin 3, off = 0x050 + 4 * c.val := by decide

/-- Settles O25: the predictors are those `clearPred` leaves. -/
theorem resetDcClearsThePredictors : Obligations.ResetDcClearsThePredictors := by
  refine ⟨fun s => ⟨s.clearPred.pred, s.clearPred_pred_get, exec_resetDc s, fun off hoff => ?_⟩, rfl,
    fun s => execute_illegal_of_formatN (op := .resetDc) rfl⟩
  obtain ⟨c, rfl⟩ := exists_dcPred_offset off hoff
  calc readOffset s.clearPred (0x050 + 4 * c.val)
      = (s.clearPred.pred.get c).signExtend 32 := readOffset_dcPred s.clearPred c
    _ = 0#32 := by rw [State.clearPred_pred_get]; rfl

end Sys2Proof.Machine
end

section
/-! PROOF. The rows of the canonical code in closed form, and when Build accepts them (41_tables R167 to R169). -/

namespace Sys2Proof.Machine

/-! ### The rows of the canonical code -/

/-- The first code at place `i` of the counts, where `code` is the one at place 0: the code after the last one of the
length before, with a bit appended (41_tables R167). -/
def firstCode (code : Nat) (counts : List Byte) : Nat → Nat
  | 0 => code
  | i + 1 => 2 * (firstCode code counts i + (counts.getD i 0#8).toNat)

/-- Build's row at place `i` of the counts, with first code `code` and first symbol `k` at place 0. -/
def canonicalRow (code k : Nat) (counts : List Byte) (i : Nat) : CodeRow where
  count := counts.getD i 0#8
  mincode := firstCode code counts i
  maxcode := if counts.getD i 0#8 = 0#8 then -1 else (firstCode code counts i : Int) + (counts.getD i 0#8).toNat - 1
  valptr := k + totalOf (counts.take i)

theorem totalOf_cons (c : Byte) (cs : List Byte) : totalOf (c :: cs) = c.toNat + totalOf cs := rfl

theorem firstCode_cons_succ (code : Nat) (c : Byte) (cs : List Byte) (i : Nat) :
    firstCode code (c :: cs) (i + 1) = firstCode (2 * (code + c.toNat)) cs i := by
  induction i with
  | zero => rfl
  | succ i ih => rw [firstCode, ih, List.getD_cons_succ, firstCode]

theorem canonicalRow_cons_succ (code k : Nat) (c : Byte) (cs : List Byte) (i : Nat) :
    canonicalRow code k (c :: cs) (i + 1) = canonicalRow (2 * (code + c.toNat)) (k + c.toNat) cs i := by
  simp only [canonicalRow, List.getD_cons_succ, firstCode_cons_succ, List.take_succ_cons, totalOf_cons, Nat.add_assoc]

theorem buildRows_rows (l code k : Nat) (cs : List Byte) :
    (buildRows l code k cs).1 = (List.range cs.length).map (canonicalRow code k cs) := by
  induction cs generalizing l code k with
  | nil => rfl
  | cons c cs ih =>
    have hhead : (⟨c, code, if c = 0#8 then -1 else ((code + c.toNat : Nat) : Int) - 1, k⟩ : CodeRow) =
        canonicalRow code k (c :: cs) 0 := by
      simp [canonicalRow, firstCode, totalOf]
    have htail : canonicalRow (2 * (code + c.toNat)) (k + c.toNat) cs = canonicalRow code k (c :: cs) ∘ Nat.succ :=
      funext fun i => (canonicalRow_cons_succ code k c cs i).symm
    rw [List.length_cons, List.range_succ_eq_map, List.map_cons, List.map_map, ← hhead, ← htail, buildRows, ih]

/-- Build accepts the counts exactly when the codes of each length fit in its bits (41_tables R168). -/
theorem buildRows_accepts (l code k : Nat) (cs : List Byte) : (buildRows l code k cs).2 = true ↔
    ∀ i < cs.length, firstCode code cs i + (cs.getD i 0#8).toNat ≤ 2 ^ (l + i) := by
  induction cs generalizing l code k with
  | nil => simp [buildRows]
  | cons c cs ih =>
    rw [List.length_cons, Nat.forall_lt_succ_left, buildRows, Bool.and_eq_true, decide_eq_true_iff, ih]
    simp only [firstCode_cons_succ, List.getD_cons_succ, Nat.add_right_comm l 1, ← Nat.add_assoc]
    rfl

theorem build_rows (counts : List Byte) :
    (build counts).1 = (List.range counts.length).map (canonicalRow 0 0 counts) := buildRows_rows 1 0 0 counts

theorem build_accepts (counts : List Byte) : (build counts).2 = true ↔
    ∀ i < counts.length, firstCode 0 counts i + (counts.getD i 0#8).toNat ≤ 2 ^ (i + 1) := by
  simp only [Nat.add_comm _ 1]
  exact buildRows_accepts 1 0 0 counts

/-! ### The properties of a row -/

/-- The symbols of one length follow those of the shorter lengths inside the table. -/
theorem totalOf_take_add_le (counts : List Byte) (i : Nat) :
    totalOf (counts.take i) + (counts.getD i 0#8).toNat ≤ totalOf counts := by
  induction counts generalizing i with
  | nil => simp [totalOf]
  | cons c cs ih =>
    cases i with
    | zero => simp [totalOf]
    | succ i =>
      rw [List.take_succ_cons, totalOf_cons, totalOf_cons, List.getD_cons_succ, Nat.add_assoc]
      exact Nat.add_le_add_left (ih i) _

/-- With first symbol 0, a row's first symbol is the number of symbols of the shorter lengths. -/
theorem canonicalRow_valptr (code : Nat) (counts : List Byte) (i : Nat) :
    (canonicalRow code 0 counts i).valptr = totalOf (counts.take i) := Nat.zero_add _

theorem canonicalRow_maxcode {code k : Nat} {counts : List Byte} {i : Nat}
    (h : 0 < (canonicalRow code k counts i).count.toNat) :
    (canonicalRow code k counts i).maxcode =
      (canonicalRow code k counts i).mincode + (canonicalRow code k counts i).count.toNat - 1 :=
  if_neg fun hzero => h.ne' (congrArg BitVec.toNat hzero)

/-- Settles O33: Build's rows are the `canonicalRow`s of its counts. -/
theorem builtRowsFormACanonicalCode : Obligations.BuiltRowsFormACanonicalCode := by
  intro counts hlen
  have haccepts := build_accepts counts
  rw [hlen] at haccepts
  refine ⟨rfl, canonicalRow 0 0 counts, hlen ▸ build_rows counts, rfl,
    fun l _ => ⟨rfl, canonicalRow_valptr 0 counts l, rfl⟩, fun l hpos _ => ?_, haccepts, fun hok htotal l hl hcount => ?_⟩
  · obtain ⟨i, rfl⟩ := Nat.exists_eq_add_one.2 hpos
    rfl
  · have hfits : ((canonicalRow 0 0 counts l).mincode : Int) + (canonicalRow 0 0 counts l).count.toNat ≤ 2 ^ (l + 1) :=
      mod_cast haccepts.1 hok l hl
    have hsymbols : (canonicalRow 0 0 counts l).valptr + (canonicalRow 0 0 counts l).count.toNat ≤ totalOf counts := by
      rw [canonicalRow_valptr]
      exact totalOf_take_add_le counts l
    rw [canonicalRow_maxcode hcount]
    exact ⟨by omega, by omega, by omega, hsymbols, htotal⟩

end Sys2Proof.Machine
end

section
/-! PROOF. The bit reader, the canonical code under HuffDecode, and RESTART (42_entropy R191, R194 to R198). -/

namespace Sys2Proof.Machine

open Sys2Proof.Claims

/-! ### Extend -/

theorem extend_zero (v : Nat) : extend v 0 = 0 := rfl

theorem extend_of_lt {n v : Nat} (hn : 1 ≤ n) (h : v < 2 ^ (n - 1)) : extend v n = (v : Int) - 2 ^ n + 1 := by
  rw [extend, if_neg (Nat.ne_of_gt hn), if_pos h]

theorem extend_of_le {n v : Nat} (hn : 1 ≤ n) (h : 2 ^ (n - 1) ≤ v) : extend v n = v := by
  rw [extend, if_neg (Nat.ne_of_gt hn), if_neg (Nat.not_lt.2 h)]

/-- The negative values of `n` bits and the positive ones (42_entropy R194). -/
theorem extend_range {n v : Nat} (hn : 1 ≤ n) (h : v < 2 ^ n) :
    (-(2 ^ n - 1 : Int) ≤ extend v n ∧ extend v n ≤ -2 ^ (n - 1)) ∨
      ((2 ^ (n - 1) : Int) ≤ extend v n ∧ extend v n ≤ 2 ^ n - 1) := by
  have hhalf : (2 : Int) * 2 ^ (n - 1) = 2 ^ n := mul_pow_sub_one (Nat.ne_of_gt hn) 2
  have hupper : (v : Int) < 2 ^ n := mod_cast h
  obtain hlow | hhigh := Nat.lt_or_ge v (2 ^ (n - 1))
  · have hlow' : (v : Int) < 2 ^ (n - 1) := mod_cast hlow
    rw [extend_of_lt hn hlow]
    exact .inl ⟨by omega, by omega⟩
  · have hhigh' : (2 : Int) ^ (n - 1) ≤ v := mod_cast hhigh
    rw [extend_of_le hn hhigh]
    exact .inr ⟨hhigh', by omega⟩

/-- Settles O35: the value's top bit decides its sign. -/
theorem extendGivesTheSignedCoefficient : Obligations.ExtendGivesTheSignedCoefficient :=
  ⟨extend_zero, fun _ _ => extend_of_lt, fun _ _ => extend_of_le, fun _ _ => extend_range, rfl, rfl, rfl, rfl, rfl⟩

/-! ### FetchByte -/

theorem byteReads_one (a : Word) : byteReads a 1 = [⟨.read, a, 1, 0⟩] := by simp [byteReads]

theorem byteReads_two (a : Word) : byteReads a 2 = byteReads a 1 ++ [⟨.read, a + 1#32, 1, 0⟩] := rfl

/-- A reader that reads the byte at its address has seen one byte from there. -/
theorem Reader.saw_first (r : Reader) : r.saw r.addr = { r with seen := r.seen ++ byteReads r.addr 1 } := by
  rw [byteReads_one]
  rfl

/-- One that then reads the byte after it has seen two. -/
theorem Reader.saw_second (r : Reader) :
    (r.saw r.addr).saw (r.addr + 1#32) = { r with seen := r.seen ++ byteReads r.addr 2 } := by
  rw [r.saw_first, byteReads_two, ← List.append_assoc]
  rfl

theorem readEntropy_of_byteIs {s : State} {a : Word} {b : Byte} (h : ByteIs s a b) (r : Reader) :
    readEntropy s a r = .got b (r.saw a) := by
  obtain ⟨hnormal, rfl⟩ := h
  rw [readEntropy, fetch_of_normal hnormal]

theorem readEntropy_of_busError {s : State} {a : Word} (h : respond s.cfg a 1 = .busError) (r : Reader) :
    readEntropy s a r = .stop (.error .bus a) r.seen := by
  rw [readEntropy, fetch_of_busError h]

theorem fetchByte_at_end {s : State} {r : Reader} (h : s.bsEnd.toNat ≤ r.addr.toNat) :
    fetchByte s r = .stop (.error .trunc r.addr) r.seen := if_pos h

theorem fetchByte_of_busError {s : State} {r : Reader} (h : r.addr.toNat < s.bsEnd.toNat)
    (hbus : respond s.cfg r.addr 1 = .busError) : fetchByte s r = .stop (.error .bus r.addr) r.seen := by
  simp [fetchByte, Nat.not_le.2 h, readEntropy_of_busError hbus]

theorem fetchByte_of_plain {s : State} {r : Reader} {b : Byte} (h : r.addr.toNat < s.bsEnd.toNat)
    (hbyte : ByteIs s r.addr b) (hb : b ≠ 0xFF#8) :
    fetchByte s r = .got b ⟨r.addr + 1#32, r.buf, r.cnt, r.seen ++ byteReads r.addr 1⟩ := by
  simp [fetchByte, Nat.not_le.2 h, readEntropy_of_byteIs hbyte, hb, Reader.saw_first]

/-- A 0xFF just before the end bound has no second byte. -/
theorem fetchByte_of_lastFF {s : State} {r : Reader} (h : r.addr.toNat < s.bsEnd.toNat)
    (hbyte : ByteIs s r.addr 0xFF#8) (hlast : s.bsEnd.toNat ≤ r.addr.toNat + 1) :
    fetchByte s r = .stop (.error .trunc r.addr) (r.seen ++ byteReads r.addr 1) := by
  simp [fetchByte, Nat.not_le.2 h, readEntropy_of_byteIs hbyte, hlast, Reader.saw_first]

/-- Behind any other 0xFF the second byte decides. -/
theorem fetchByte_of_FF {s : State} {r : Reader} (hbyte : ByteIs s r.addr 0xFF#8)
    (h : r.addr.toNat + 1 < s.bsEnd.toNat) :
    fetchByte s r = (readEntropy s (r.addr + 1#32) (r.saw r.addr)).bind fun b2 r2 =>
      if b2 = 0x00#8 then .got 0xFF#8 { r2 with addr := r.addr + 2#32 }
      else .stop (.error .marker r.addr) r2.seen := by
  have hend : ¬s.bsEnd.toNat ≤ r.addr.toNat := by omega
  simp [fetchByte, hend, readEntropy_of_byteIs hbyte, Nat.not_le.2 h]

theorem fetchByte_of_FF_busError {s : State} {r : Reader} (hbyte : ByteIs s r.addr 0xFF#8)
    (h : r.addr.toNat + 1 < s.bsEnd.toNat) (hbus : respond s.cfg (r.addr + 1#32) 1 = .busError) :
    fetchByte s r = .stop (.error .bus (r.addr + 1#32)) (r.seen ++ byteReads r.addr 1) := by
  rw [fetchByte_of_FF hbyte h, readEntropy_of_busError hbus, Reading.stop_bind, r.saw_first]

theorem fetchByte_of_stuffed {s : State} {r : Reader} (hbyte : ByteIs s r.addr 0xFF#8)
    (h : r.addr.toNat + 1 < s.bsEnd.toNat) (hzero : ByteIs s (r.addr + 1#32) 0x00#8) :
    fetchByte s r = .got 0xFF#8 ⟨r.addr + 2#32, r.buf, r.cnt, r.seen ++ byteReads r.addr 2⟩ := by
  rw [fetchByte_of_FF hbyte h, readEntropy_of_byteIs hzero, Reading.got_bind, if_pos rfl, r.saw_second]

theorem fetchByte_of_marker {s : State} {r : Reader} {b2 : Byte} (hbyte : ByteIs s r.addr 0xFF#8)
    (h : r.addr.toNat + 1 < s.bsEnd.toNat) (hnext : ByteIs s (r.addr + 1#32) b2) (hb2 : b2 ≠ 0x00#8) :
    fetchByte s r = .stop (.error .marker r.addr) (r.seen ++ byteReads r.addr 2) := by
  rw [fetchByte_of_FF hbyte h, readEntropy_of_byteIs hnext, Reading.got_bind, if_neg hb2, r.saw_second]

/-- Settles O36: the paths of FetchByte, where the first two read no byte. -/
theorem fetchByteRemovesStuffing : Obligations.FetchByteRemovesStuffing := by
  intro s r b b2
  have hnone : r.seen ++ byteReads r.addr 0 = r.seen := List.append_nil _
  simp only [hnone]
  exact ⟨fetchByte_at_end, fun h => ⟨fetchByte_of_busError h, fetchByte_of_plain h, fetchByte_of_lastFF h,
    fun hFF hnext => ⟨fetchByte_of_FF_busError hFF hnext, fetchByte_of_stuffed hFF hnext,
      fetchByte_of_marker hFF hnext⟩⟩⟩

/-! ### HuffDecode -/

/-- Build's first row, and the rows of the counts after it. -/
theorem buildRows_cons (l code k : Nat) (c : Byte) (cs : List Byte) :
    (buildRows l code k (c :: cs)).1 =
      canonicalRow code k (c :: cs) 0 :: (buildRows (l + 1) (2 * (code + c.toNat)) (k + c.toNat) cs).1 := by
  simp [buildRows, canonicalRow, firstCode, totalOf]

/-- A code that is not below a row's first one matches the row exactly when it is among the row's codes. -/
theorem canonicalRow_matches_iff {first k : Nat} {counts : List Byte} {i code : Nat}
    (h : (canonicalRow first k counts i).mincode ≤ code) :
    0 ≤ (canonicalRow first k counts i).maxcode ∧ (code : Int) ≤ (canonicalRow first k counts i).maxcode ↔
      code < (canonicalRow first k counts i).mincode + (canonicalRow first k counts i).count.toNat := by
  obtain hzero | hpos := Nat.eq_zero_or_pos (canonicalRow first k counts i).count.toNat
  · have hcount : counts.getD i 0#8 = 0#8 := BitVec.eq_of_toNat_eq hzero
    have hmax : (canonicalRow first k counts i).maxcode = -1 := if_pos hcount
    omega
  · have hmax := canonicalRow_maxcode hpos
    omega

theorem receiveFrom_succ_of_bit {s : State} {r r1 : Reader} {bit : Bool} (h : nextBit s r = .got bit r1) (n v : Nat) :
    receiveFrom s (n + 1) v r = receiveFrom s n (2 * v + bit.toNat) r1 := by
  rw [receiveFrom, h]
  rfl

/-- One round of HuffDecode that returns: its bit completes a code of the row, or no code of it and the rounds after
return. -/
theorem huffFrom_cons_got {s : State} {values : List Byte} {row : CodeRow} {rows : List CodeRow} {code : Nat}
    {r r' : Reader} {sym : Byte} (h : huffFrom s values (row :: rows) code r = .got sym r') :
    ∃ bit r1, nextBit s r = .got bit r1 ∧
      ((0 ≤ row.maxcode ∧ ((2 * code + bit.toNat : Nat) : Int) ≤ row.maxcode) ∧
          sym = symbolAt values row (2 * code + bit.toNat) ∧ r' = r1 ∨
        ¬(0 ≤ row.maxcode ∧ ((2 * code + bit.toNat : Nat) : Int) ≤ row.maxcode) ∧
          huffFrom s values rows (2 * code + bit.toNat) r1 = .got sym r') := by
  obtain ⟨bit, r1, hbit, h⟩ := Reading.bind_got h
  refine ⟨bit, r1, hbit, ?_⟩
  simp only at h
  split at h
  · cases h
    exact .inl ⟨‹_›, rfl, rfl⟩
  · exact .inr ⟨‹_›, h⟩

/-- HuffDecode over canonical rows returns at a length whose codes include the bits taken. The bits never fall below the
first code of the length to try: where a length does not match, they lie above all its codes (42_entropy R196). -/
theorem huffFrom_buildRows_got {s : State} {values counts : List Byte} {l first k code : Nat} {r r' : Reader}
    {sym : Byte} (hfirst : first ≤ 2 * code)
    (h : huffFrom s values (buildRows l first k counts).1 code r = .got sym r') :
    ∃ i < counts.length, ∃ c, receiveFrom s (i + 1) code r = .got c r' ∧
      (canonicalRow first k counts i).mincode ≤ c ∧
      c < (canonicalRow first k counts i).mincode + (canonicalRow first k counts i).count.toNat ∧
      sym = symbolAt values (canonicalRow first k counts i) c := by
  induction counts generalizing l first k code r with
  | nil => cases h
  | cons n counts ih =>
    rw [buildRows_cons] at h
    obtain ⟨bit, r1, hbit, h⟩ := huffFrom_cons_got h
    have hmin : (canonicalRow first k (n :: counts) 0).mincode ≤ 2 * code + bit.toNat :=
      hfirst.trans (Nat.le_add_right _ _)
    rw [canonicalRow_matches_iff hmin] at h
    obtain ⟨hmatch, hsym, rfl⟩ | ⟨hmiss, h⟩ := h
    · exact ⟨0, Nat.succ_pos _, _, receiveFrom_succ_of_bit hbit 0 code, hmin, hmatch, hsym⟩
    · have hnext : 2 * (first + n.toNat) ≤ 2 * (2 * code + bit.toNat) :=
        Nat.mul_le_mul_left 2 (Nat.not_lt.1 hmiss)
      obtain ⟨i, hi, c, hreceive, hrow⟩ := ih hnext h
      rw [← canonicalRow_cons_succ] at hrow
      exact ⟨i + 1, Nat.succ_lt_succ hi, c, (receiveFrom_succ_of_bit hbit _ _).trans hreceive, hrow⟩

theorem Built.rows_eq {t : HuffTable} (h : Built t) :
    t.rows.toList = (build (t.rows.toList.map CodeRow.count)).1 := by
  obtain ⟨-, -, hrows, -⟩ := h
  exact hrows

theorem Built.values_length {t : HuffTable} (h : Built t) :
    t.values.length = totalOf (t.rows.toList.map CodeRow.count) := by
  obtain ⟨-, -, -, hvalues⟩ := h
  exact hvalues

theorem Built.rows_get {t : HuffTable} (h : Built t) (l : Fin 16) :
    t.rows.get l = canonicalRow 0 0 (t.rows.toList.map CodeRow.count) l := by
  have hget : t.rows.toList[l.val]? = some (t.rows.get l) := by simp [Vector.get]
  rw [h.rows_eq, build_rows] at hget
  simpa using hget.symm

/-- The symbols of a code length's codes are stored. -/
theorem Built.valptr_add_count_le {t : HuffTable} (h : Built t) (l : Fin 16) :
    (t.rows.get l).valptr + (t.rows.get l).count.toNat ≤ t.values.length := by
  rw [h.rows_get, h.values_length, canonicalRow_valptr]
  exact totalOf_take_add_le _ _

theorem symbolAt_getElem? {values : List Byte} {row : CodeRow} {code : Nat}
    (h : row.valptr + code - row.mincode < values.length) :
    values[row.valptr + code - row.mincode]? = some (symbolAt values row code) := by
  rw [symbolAt, List.getD_eq_getElem?_getD, List.getElem?_eq_getElem h]
  rfl

/-- HuffDecode on a well-built slot returns a symbol of the bits it took, which are one of their length's codes. -/
theorem huffDecode_got {s : State} {slot : Fin 4} {r r' : Reader} {sym : Byte} (hbuilt : Built (s.ht.get slot))
    (h : huffDecode s slot r = .got sym r') :
    ∃ (l : Fin 16) (code : Nat), receive s (l.val + 1) r = .got code r' ∧
      ((s.ht.get slot).rows.get l).mincode ≤ code ∧
      code < ((s.ht.get slot).rows.get l).mincode + ((s.ht.get slot).rows.get l).count.toNat ∧
      sym = symbolAt (s.ht.get slot).values ((s.ht.get slot).rows.get l) code := by
  rw [huffDecode, hbuilt.rows_eq] at h
  obtain ⟨i, hi, code, hreceive, hrow⟩ := huffFrom_buildRows_got (Nat.zero_le _) h
  have hlen : i < 16 := by simpa using hi
  refine ⟨⟨i, hlen⟩, code, hreceive, ?_⟩
  rwa [hbuilt.rows_get]

/-- Settles O38: the code's place among its length's codes is the symbol's place among those stored for them. -/
theorem huffmanSymbolIsAStoredOne : Obligations.HuffmanSymbolIsAStoredOne := by
  intro s slot r r' sym hbuilt hdecode
  obtain ⟨l, code, hreceive, hmin, hmax, rfl⟩ := huffDecode_got hbuilt hdecode
  have hstored := hbuilt.valptr_add_count_le l
  have hindex : ((s.ht.get slot).rows.get l).valptr + code - ((s.ht.get slot).rows.get l).mincode <
      (s.ht.get slot).values.length := by omega
  exact ⟨l, code, hreceive, hmin, by omega, hindex, symbolAt_getElem? hindex⟩

/-! ### RESTART -/

theorem execRestart_trunc {s : State} (h : s.bsEnd.toNat < s.bsAddr.toNat + 2) :
    execRestart s = .next (s.raise .trunc s.bsAddr) := if_pos (by omega)

theorem execRestart_skip {s : State} (h : s.bsAddr.toNat + 2 ≤ s.bsEnd.toNat) :
    execRestart s = .next (((s.setReader (s.bsAddr + 2#32) 0#8 0).clearPred).complete 0#32) := if_neg (by omega)

/-- Settles O26: the end bound is a 32-bit address, so a marker before it lies in the address space. -/
theorem restartSkipsTheMarkerOrRaisesTrunc : Obligations.RestartSkipsTheMarkerOrRaisesTrunc := by
  intro s
  refine ⟨execRestart_trunc, fun h => ⟨s.clearPred.pred, s.clearPred_pred_get, ?_, h.trans_lt s.bsEnd.isLt⟩, rfl⟩
  have haddr : BitVec.ofNat 32 (s.bsAddr.toNat + 2) = s.bsAddr + 2#32 := by
    rw [BitVec.ofNat_add, BitVec.ofNat_toNat, BitVec.setWidth_eq]
  rw [haddr]
  exact execRestart_skip h

end Sys2Proof.Machine
end

section
/-! PROOF. Dequantisation through the zig-zag table (43_idct R232, R233). -/

namespace Sys2Proof.Machine

/-! ### Scattering -/

@[simp] theorem scatter_length (ps : List Nat) (vs f : List Int) : (scatter ps vs f).length = f.length := by
  induction ps generalizing vs f with
  | nil => rfl
  | cons p ps ih =>
    cases vs with
    | nil => rfl
    | cons v vs => rw [scatter, ih, List.length_set]

theorem scatter_getElem?_of_not_mem {ps : List Nat} {vs f : List Int} {p : Nat} (h : p ∉ ps) :
    (scatter ps vs f)[p]? = f[p]? := by
  induction ps generalizing vs f with
  | nil => rfl
  | cons q ps ih =>
    obtain ⟨hne, hps⟩ : p ≠ q ∧ p ∉ ps := by simpa using h
    cases vs with
    | nil => rfl
    | cons v vs => rw [scatter, ih hps, List.getElem?_set_ne (Ne.symm hne)]

/-- The value at a place of the list lands at the position of that place, where no position is named twice. -/
theorem scatter_getElem? {ps : List Nat} {vs f : List Int} {k p : Nat} {v : Int} (hnodup : ps.Nodup)
    (hp : ps[k]? = some p) (hv : vs[k]? = some v) (hlt : p < f.length) : (scatter ps vs f)[p]? = some v := by
  induction ps generalizing vs f k with
  | nil => cases hp
  | cons q ps ih =>
    obtain ⟨hq, hps⟩ := List.nodup_cons.1 hnodup
    cases vs with
    | nil => cases hv
    | cons w vs =>
      cases k with
      | zero =>
        cases hp
        cases hv
        rw [scatter, scatter_getElem?_of_not_mem hq, List.getElem?_set_self hlt]
      | succ k => exact ih hps hp hv (by rwa [List.length_set])

/-! ### The zig-zag table and Prepare -/

theorem zigzag_perm : zigzag.Perm (List.range 64) := by decide

theorem zigzag_nodup : zigzag.Nodup := zigzag_perm.nodup_iff.2 List.nodup_range

theorem zigzag_lt {p : Nat} (h : p ∈ zigzag) : p < 64 := List.mem_range.1 (zigzag_perm.mem_iff.1 h)

theorem dequantised_getElem? {z : List Int} (t : QuantTable) (hz : z.length = 64) (k : Fin 64) :
    (dequantised z t)[k.val]? = some (sat16 (z.getD k.val 0 * ((t.get k).toNat : Int))) := by
  have hk : k.val < z.length := by rw [hz]; exact k.isLt
  simp [dequantised, List.getElem?_zipWith, List.getElem?_eq_getElem hk, Vector.get]

@[simp] theorem prepare_length (z : List Int) (t : QuantTable) : (prepare z t false).length = 64 :=
  scatter_length _ _ _

/-- Position `ZZ[k]` of the prepared block holds the saturated product of the k-th coefficient. -/
theorem prepare_getD_zigzag {z : List Int} (t : QuantTable) (hz : z.length = 64) (k : Fin 64) :
    (prepare z t false).getD (zigzag.getD k.val 64) 0 = sat16 (z.getD k.val 0 * ((t.get k).toNat : Int)) := by
  have hk : k.val < zigzag.length := k.isLt
  have hzz : zigzag[k.val]? = some zigzag[k.val] := List.getElem?_eq_getElem hk
  have hlt : zigzag[k.val] < (List.replicate 64 (0 : Int)).length := zigzag_lt (List.getElem_mem hk)
  have hput : (prepare z t false)[zigzag[k.val]]? = _ :=
    scatter_getElem? zigzag_nodup hzz (dequantised_getElem? t hz k) hlt
  rw [List.getD_eq_getElem?_getD, List.getD_eq_getElem?_getD, hzz, Option.getD_some, hput, Option.getD_some]

/-- Settles O44: the table names no position twice, so no product overwrites another. -/
theorem prepareScattersThroughTheZigzag : Obligations.PrepareScattersThroughTheZigzag :=
  ⟨rfl, zigzag_perm, rfl, rfl, fun z t hz => ⟨rfl, prepare_length z t, prepare_getD_zigzag t hz⟩⟩

end Sys2Proof.Machine
end

section
/-! PROOF. The inverse transform: its passes in closed form, their shortcuts, and blocks with one row or one column of
coefficients (43_idct R235 to R237, R241, R242). -/

namespace Sys2Proof.Machine

open Sys2Proof.Claims

/-! ### The passes in closed form -/

/-- The shift by 8, its amount an integer or a natural number, as a division. -/
theorem shiftRight_eight (x : Int) : x >>> (8 : Int) = x / 256 ∧ x >>> (8 : Nat) = x / 256 :=
  have hdiv : x >>> (8 : Nat) = x / 256 := Int.shiftRight_eq_div_pow x 8
  ⟨(Int.shiftRight_natCast_right x 8).trans hdiv, hdiv⟩

/-- The shift by 3, its amount an integer or a natural number, as a division. -/
theorem shiftRight_three (x : Int) : x >>> (3 : Int) = x / 8 ∧ x >>> (3 : Nat) = x / 8 :=
  have hdiv : x >>> (3 : Nat) = x / 8 := Int.shiftRight_eq_div_pow x 3
  ⟨(Int.shiftRight_natCast_right x 3).trans hdiv, hdiv⟩

theorem lastStages_eq_passResults (shift : Nat) (p q e g a b c d : Int) :
    lastStages shift q (a + c) g e (a - c) (b - d) (b + d) p = passResults (2 ^ shift) p q e g a b c d := by
  simp [lastStages, passResults, shiftRight_eight, Int.shiftRight_eq_div_pow]

theorem rowPass_eq_passResults (b0 b1 b2 b3 b4 b5 b6 b7 : Int) :
    rowPass b0 b1 b2 b3 b4 b5 b6 b7 =
      passResults 256 (2048 * (b0 + b4) + 128) (2048 * (b0 - b4) + 128)
        (2676 * b2 + 1108 * b6) (1108 * b2 - 2676 * b6) (2841 * b1 + 565 * b7) (565 * b1 - 2841 * b7)
        (2408 * b3 + 1609 * b5) (2408 * b5 - 1609 * b3) := by
  refine Eq.trans ?_ (lastStages_eq_passResults 8 ..)
  simp only [rowPass, w1, w2, w3, w5, w6, w7]
  ring_nf

theorem colPass_eq_passResults (b0 b1 b2 b3 b4 b5 b6 b7 : Int) :
    colPass b0 b1 b2 b3 b4 b5 b6 b7 =
      passResults 16384 (256 * (b0 + b4) + 8192) (256 * (b0 - b4) + 8192)
        ((2676 * b2 + 1108 * b6 + 4) / 8) ((1108 * b2 - 2676 * b6 + 4) / 8)
        ((2841 * b1 + 565 * b7 + 4) / 8) ((565 * b1 - 2841 * b7 + 4) / 8)
        ((2408 * b3 + 1609 * b5 + 4) / 8) ((2408 * b5 - 1609 * b3 + 4) / 8) := by
  refine Eq.trans ?_ (lastStages_eq_passResults 14 ..)
  simp only [colPass, w1, w2, w3, w5, w6, w7, shiftRight_three]
  ring_nf

/-! ### The shortcuts -/

/-- With nothing but places 0 and 4, and those equal, all eight results are one quotient. -/
theorem passResults_flat (n p : Int) : passResults n p p 0 0 0 0 0 0 = List.replicate 8 (p / n) := by
  simp [passResults, List.replicate]

theorem rowPass_dcOnly (b : Int) : rowPass b 0 0 0 0 0 0 0 = List.replicate 8 (b * 8) := by
  have hround : (2048 * b + 128) / 256 = b * 8 := by omega
  simp [rowPass_eq_passResults, passResults_flat, hround]

theorem colPass_dcOnly (b : Int) : colPass b 0 0 0 0 0 0 0 = List.replicate 8 ((b + 32) / 64) := by
  have hround : (256 * b + 8192) / 16384 = (b + 32) / 64 := by omega
  simp [colPass_eq_passResults, passResults_flat, hround]

/-! ### A pass over a list -/

theorem passOn_congr {pass : Int → Int → Int → Int → Int → Int → Int → Int → List Int} {f g : Nat → Int}
    (h : ∀ i < 8, f i = g i) : passOn pass f = passOn pass g := by
  simp [passOn, h]

theorem passOn_dcOnly {pass : Int → Int → Int → Int → Int → Int → Int → Int → List Int} {f : Nat → Int}
    (h : ∀ i < 8, 0 < i → f i = 0) : passOn pass f = pass (f 0) 0 0 0 0 0 0 0 := by
  simp [passOn, h]

/-! ### The transform -/

/-- The transform is the column pass on a column of the row results. -/
theorem idctCore_eq_passOn (f : List Int) {row col : Nat} (hcol : col < 8) :
    idctCore .cw11 f row col =
      (passOn colPass fun v => (passOn rowPass fun u => f.getD (8 * v + u) 0).getD col 0).getD row 0 := by
  simp [idctCore, colResults, rowResults, hcol, passOn]

theorem rowPass_row_dcOnly {f : List Int} {v : Nat} (h : ∀ u < 8, 0 < u → f.getD (8 * v + u) 0 = 0)
    {col : Nat} (hcol : col < 8) :
    (passOn rowPass fun u => f.getD (8 * v + u) 0).getD col 0 = f.getD (8 * v) 0 * 8 := by
  rw [passOn_dcOnly h, rowPass_dcOnly, List.getD_replicate _ hcol, Nat.add_zero]

/-- With coefficients in row 0 only, every column takes the shortcut of the column pass. -/
theorem idctCore_of_firstRow {f : List Int} (h : ∀ v < 8, 0 < v → ∀ u < 8, f.getD (8 * v + u) 0 = 0)
    {row col : Nat} (hrow : row < 8) (hcol : col < 8) :
    idctCore .cw11 f row col = ((passOn rowPass fun u => f.getD u 0).getD col 0 + 32) / 64 := by
  have hrest : ∀ v < 8, 0 < v → (passOn rowPass fun u => f.getD (8 * v + u) 0).getD col 0 = 0 := by
    intro v hv hpos
    have hdc : f.getD (8 * v) 0 = 0 := h v hv hpos 0 (by decide)
    rw [rowPass_row_dcOnly (fun u hu _ => h v hv hpos u hu) hcol, hdc, zero_mul]
  rw [idctCore_eq_passOn f hcol, passOn_dcOnly hrest, colPass_dcOnly, List.getD_replicate _ hrow]
  simp only [Nat.mul_zero, Nat.zero_add]

/-- With coefficients in column 0 only, every row takes the shortcut of the row pass. -/
theorem idctCore_of_firstColumn {f : List Int} (h : ∀ v < 8, ∀ u < 8, 0 < u → f.getD (8 * v + u) 0 = 0)
    {row col : Nat} (hcol : col < 8) :
    idctCore .cw11 f row col = (passOn colPass fun v => f.getD (8 * v) 0 * 8).getD row 0 := by
  have hrows : ∀ v < 8, (passOn rowPass fun u => f.getD (8 * v + u) 0).getD col 0 = f.getD (8 * v) 0 * 8 :=
    fun v hv => rowPass_row_dcOnly (h v hv) hcol
  rw [idctCore_eq_passOn f hcol, passOn_congr hrows]

/-- A block with only `F[0]` takes both shortcuts. -/
theorem idctCore_dcOnly (D : Int) {row col : Nat} (hrow : row < 8) (hcol : col < 8) :
    idctCore .cw11 (D :: List.replicate 63 0) row col = (D + 4) / 8 := by
  have hrest : ∀ i, 0 < i → (D :: List.replicate 63 0).getD i 0 = 0
    | k + 1, _ => by rw [List.getD_cons_succ, List.getD_eq_getElem?_getD, List.getElem?_getD_replicate_default_eq]
  have hcolumn : ∀ v < 8, 0 < v → (D :: List.replicate 63 0).getD (8 * v) 0 * 8 = 0 := by
    intro v _ hpos
    rw [hrest _ (by omega), zero_mul]
  rw [idctCore_of_firstColumn (fun v _ u _ hu => hrest _ (by omega)) hcol, passOn_dcOnly hcolumn, colPass_dcOnly,
    List.getD_replicate _ hrow]
  change (D * 8 + 32) / 64 = (D + 4) / 8
  omega

/-! ### The spec's vectors -/

/-- The clip and the level shift of the spec's DC-only blocks (43_idct R242). -/
theorem idctSample_dcOnly_table :
    ∀ e ∈ [((0 : Int), (0 : Int), (128 : Int)), (576, 72, 200), (-1024, -128, 0), (4000, 500, 628), (32767, 511, 639),
      (-32768, -256, -128)],
      idctSample Config.initial ((e.1 + 4) / 8) false = e.2.1 ∧
      idctSample Config.initial ((e.1 + 4) / 8) true = e.2.2 := by
  decide

/-- T-IDCT-2. -/
theorem idctCore_oneRowCoefficient {row col : Nat} (hrow : row < 8) (hcol : col < 8) :
    idctCore .cw11 ([0, 100] ++ List.replicate 62 0) row col = [17, 15, 10, 3, -3, -10, -15, -17].getD col 0 := by
  rw [idctCore_of_firstRow (by decide) hrow hcol]
  revert col
  decide

/-- T-IDCT-3. -/
theorem idctCore_oneColumnCoefficient {row col : Nat} (hrow : row < 8) (hcol : col < 8) :
    idctCore .cw11 (List.replicate 8 0 ++ (-200) :: List.replicate 55 0) row col =
      [-35, -29, -20, -7, 7, 20, 29, 35].getD row 0 := by
  rw [idctCore_of_firstColumn (by decide) hcol]
  revert row
  decide

/-- Settles O45: the DC-only table and the two vectors follow from the shortcuts of the passes. -/
theorem shortcutsAndDcOnlyBlocks : Obligations.ShortcutsAndDcOnlyBlocks := by
  refine ⟨fun b0 b1 b2 b3 b4 b5 b6 b7 => ⟨rowPass_eq_passResults .., colPass_eq_passResults ..⟩, ?_,
    fun b => ⟨rowPass_dcOnly b, colPass_dcOnly b⟩, fun D row col hrow hcol => idctCore_dcOnly D hrow hcol, ?_,
    fun row hrow col hcol => ⟨idctCore_oneRowCoefficient hrow hcol, idctCore_oneColumnCoefficient hrow hcol⟩⟩
  · intro f row col _ hcol
    simp only [idctCore_eq_passOn f hcol, passOn]
  · intro e he row hrow col hcol
    rw [idctCore_dcOnly e.1 hrow hcol]
    exact idctSample_dcOnly_table e he

end Sys2Proof.Machine
end

section
/-! PROOF. Properties of YccToRgb: gray identity for all coefficients, monotonicity for all non-negative ones, and the
default coefficients as an instance (44_color R266, R267). -/

namespace Sys2Proof.Machine

open Sys2Proof.Claims

/-! ### Clamping -/

theorem clamp_bounds {lo hi : Int} (h : lo ≤ hi) (v : Int) : lo ≤ clamp v lo hi ∧ clamp v lo hi ≤ hi :=
  ⟨le_min h (le_max_left lo v), min_le_left hi _⟩

theorem clamp_of_bounds {v lo hi : Int} (hlo : lo ≤ v) (hhi : v ≤ hi) : clamp v lo hi = v := by
  rw [clamp, max_eq_right hlo, min_eq_right hhi]

theorem clamp_mono {v w : Int} (h : v ≤ w) (lo hi : Int) : clamp v lo hi ≤ clamp w lo hi :=
  min_le_min_left hi (max_le_max_left lo h)

/-! ### Rounding a weighted sum to a channel -/

/-- Rounding and clamping a weighted sum keeps the order of the sums. -/
theorem roundedChannel_mono {a b : Int} (h : a ≤ b) :
    clamp ((a + 128) >>> 8) 0 255 ≤ clamp ((b + 128) >>> 8) 0 255 := by
  simp only [shiftRight_eight]
  exact clamp_mono (Int.ediv_le_ediv (by decide) (by omega)) 0 255

/-- A channel value scaled by 256 rounds back to itself (44_color R267, gray identity). -/
theorem roundedChannel_scaled {y : Int} (h0 : 0 ≤ y) (h255 : y ≤ 255) :
    clamp ((256 * y + 128) >>> 8) 0 255 = y := by
  have hround : (256 * y + 128) / 256 = y := by omega
  simp only [shiftRight_eight, hround, clamp_of_bounds h0 h255]

/-! ### The channels -/

theorem ycc_gray (k : YccCoef) {y : Int} (h0 : 0 ≤ y) (h255 : y ≤ 255) :
    yccRed k y 0 = y ∧ yccGreen k y 0 0 = y ∧ yccBlue k y 0 = y := by
  simp only [yccRed, yccGreen, yccBlue, mul_zero, add_zero, sub_zero, roundedChannel_scaled h0 h255, and_self]

theorem yccRed_mono {k : YccCoef} (hk : 0 ≤ k.crR) {y y' cr cr' : Int} (hy : y ≤ y') (hcr : cr ≤ cr') :
    yccRed k y cr ≤ yccRed k y' cr' :=
  roundedChannel_mono (by gcongr)

/-- Green falls as either chroma grows, so the chromas' order is reversed. -/
theorem yccGreen_mono {k : YccCoef} (hcbG : 0 ≤ k.cbG) (hcrG : 0 ≤ k.crG) {y y' cb cb' cr cr' : Int} (hy : y ≤ y')
    (hcb : cb' ≤ cb) (hcr : cr' ≤ cr) : yccGreen k y cb cr ≤ yccGreen k y' cb' cr' :=
  roundedChannel_mono (by gcongr)

theorem yccBlue_mono {k : YccCoef} (hk : 0 ≤ k.cbB) {y y' cb cb' : Int} (hy : y ≤ y') (hcb : cb ≤ cb') :
    yccBlue k y cb ≤ yccBlue k y' cb' :=
  roundedChannel_mono (by gcongr)

/-- Settles O49: the default coefficients are non-negative, so every channel is monotone in the luma and in its
chromas. -/
theorem yccToRgbProperties : Obligations.YccToRgbProperties := by
  unfold Obligations.YccToRgbProperties
  intro k
  have hcrR : 0 ≤ k.crR := (by decide : (0 : Int) ≤ 359)
  have hcbG : 0 ≤ k.cbG := (by decide : (0 : Int) ≤ 88)
  have hcrG : 0 ≤ k.crG := (by decide : (0 : Int) ≤ 183)
  have hcbB : 0 ≤ k.cbB := (by decide : (0 : Int) ≤ 454)
  have range (v : Int) := clamp_bounds (lo := 0) (hi := 255) (by decide) v
  refine ⟨fun _ => ycc_gray k, fun y cb cr => ⟨range _, range _, range _⟩, ?_, ?_, ?_⟩
  · exact fun y y' cb cr hy => ⟨yccRed_mono hcrR hy le_rfl, yccGreen_mono hcbG hcrG hy le_rfl le_rfl,
      yccBlue_mono hcbB hy le_rfl⟩
  · exact fun y cb cr cr' hcr => ⟨yccRed_mono hcrR le_rfl hcr, yccGreen_mono hcbG hcrG le_rfl le_rfl hcr⟩
  · exact fun y cb cb' cr hcb => ⟨yccBlue_mono hcbB le_rfl hcb, yccGreen_mono hcbG hcrG le_rfl hcb le_rfl⟩

end Sys2Proof.Machine
end

section
/-! PROOF. The "over" formula's arithmetic: its bounds, and its values for opaque and transparent foregrounds (46_blend
R314, R315). -/

namespace Sys2Proof.Machine

/-! ### The product of the alphas and the resulting alpha -/

theorem alphaMult_comm (af ab : Nat) : alphaMult af ab = alphaMult ab af := by
  rw [alphaMult, alphaMult, Nat.mul_comm]

theorem alphaMult_le_left (af : Nat) {ab : Nat} (hab : ab ≤ 255) : alphaMult af ab ≤ af :=
  Nat.div_le_of_le_mul (Nat.mul_comm 255 af ▸ Nat.mul_le_mul_left af hab)

theorem alphaMult_le_right {af : Nat} (haf : af ≤ 255) (ab : Nat) : alphaMult af ab ≤ ab :=
  alphaMult_comm ab af ▸ alphaMult_le_left ab haf

/-- The resulting alpha adds to the foreground's what the foreground lets through of the background's. -/
theorem alphaOut_eq_add {af : Nat} (haf : af ≤ 255) (ab : Nat) : alphaOut af ab = af + (ab - alphaMult af ab) :=
  Nat.add_sub_assoc (alphaMult_le_right haf ab) af

theorem max_le_alphaOut {af ab : Nat} (haf : af ≤ 255) (hab : ab ≤ 255) : max af ab ≤ alphaOut af ab := by
  have hleft := alphaMult_le_left af hab
  have hright := alphaMult_le_right haf ab
  rw [alphaOut]
  omega

/-- The transparencies multiply: the product identity under R314's second bound. -/
theorem alphaOut_eq_complement {af ab : Nat} (haf : af ≤ 255) (hab : ab ≤ 255) :
    alphaOut af ab = 255 - (255 - af) * (255 - ab) / 255 := by
  have hprod : (255 - af) * (255 - ab) + 255 * (af + ab) = 255 * 255 + af * ab := by
    zify [haf, hab]
    ring
  rw [alphaOut, alphaMult]
  omega

theorem alphaOut_le {af ab : Nat} (haf : af ≤ 255) (hab : ab ≤ 255) : alphaOut af ab ≤ 255 :=
  (alphaOut_eq_complement haf hab).trans_le (Nat.sub_le _ _)

theorem alphaOut_eq_zero_iff {af ab : Nat} (haf : af ≤ 255) (hab : ab ≤ 255) :
    alphaOut af ab = 0 ↔ af = 0 ∧ ab = 0 := by
  constructor
  · intro h
    have hmax := max_le_alphaOut haf hab
    omega
  · rintro ⟨rfl, rfl⟩
    rfl

/-! ### A channel -/

theorem overChannel_eq_div {af : Nat} (haf : af ≤ 255) (ab cf cb : Nat) :
    overChannel af ab cf cb = (cf * af + cb * (ab - alphaMult af ab)) / alphaOut af ab := by
  rw [overChannel, Nat.add_sub_assoc (Nat.mul_le_mul_left cb (alphaMult_le_right haf ab)), Nat.mul_sub]

/-- A channel's numerator is a sum of two channels whose weights add up to the resulting alpha. -/
theorem overNumerator_le {af cf cb : Nat} (haf : af ≤ 255) (hcf : cf ≤ 255) (hcb : cb ≤ 255) (ab : Nat) :
    cf * af + cb * (ab - alphaMult af ab) ≤ 255 * alphaOut af ab := by
  rw [alphaOut_eq_add haf, Nat.mul_add]
  exact Nat.add_le_add (Nat.mul_le_mul_right _ hcf) (Nat.mul_le_mul_right _ hcb)

theorem overChannel_le {af cf cb : Nat} (haf : af ≤ 255) (hcf : cf ≤ 255) (hcb : cb ≤ 255) (ab : Nat) :
    overChannel af ab cf cb ≤ 255 := by
  rw [overChannel_eq_div haf]
  exact Nat.div_le_of_le_mul (Nat.mul_comm 255 _ ▸ overNumerator_le haf hcf hcb ab)

/-- Settles O56: each alpha bounds their product, and a channel is a weighted mean of two channels. -/
theorem blendChannelsFitEightBits : Obligations.BlendChannelsFitEightBits := by
  intro af ab cf cb haf hab hcf hcb
  exact ⟨le_min (alphaMult_le_left af hab) (alphaMult_le_right haf ab), max_le_alphaOut haf hab,
    alphaOut_eq_complement haf hab, alphaOut_le haf hab, overNumerator_le haf hcf hcb ab,
    overChannel_le haf hcf hcb ab⟩

/-! ### Opaque and transparent foregrounds -/

@[simp] theorem alphaMult_opaque (ab : Nat) : alphaMult 255 ab = ab := Nat.mul_div_cancel_left ab (by decide)

@[simp] theorem alphaOut_opaque (ab : Nat) : alphaOut 255 ab = 255 := by
  rw [alphaOut, alphaMult_opaque, Nat.add_sub_cancel]

@[simp] theorem overChannel_opaque (ab cf cb : Nat) : overChannel 255 ab cf cb = cf := by
  rw [overChannel, alphaMult_opaque, alphaOut_opaque, Nat.add_sub_cancel, Nat.mul_div_cancel cf (by decide)]

@[simp] theorem alphaMult_transparent (ab : Nat) : alphaMult 0 ab = 0 := by
  rw [alphaMult, Nat.zero_mul, Nat.zero_div]

@[simp] theorem alphaOut_transparent (ab : Nat) : alphaOut 0 ab = ab := by
  rw [alphaOut, alphaMult_transparent, Nat.sub_zero, Nat.zero_add]

theorem overChannel_transparent {ab : Nat} (hab : 0 < ab) (cf cb : Nat) : overChannel 0 ab cf cb = cb := by
  rw [overChannel, alphaMult_transparent, alphaOut_transparent, Nat.mul_zero, Nat.mul_zero, Nat.zero_add, Nat.sub_zero,
    Nat.mul_div_cancel cb hab]

end Sys2Proof.Machine
end

section
/-! PROOF. BlendPixel in its cases, and its identities for opaque and transparent foregrounds (46_blend R311, R313,
R315). -/

namespace Sys2Proof.Machine

/-! ### The channels of a word make it up -/

theorem alphaOf_eq (p : Word) : alphaOf p = p.toNat / 2 ^ 24 := by
  rw [alphaOf, BitVec.extractLsb'_toNat, Nat.shiftRight_eq_div_pow]
  omega

theorem alphaOf_le (p : Word) : alphaOf p ≤ 255 := Nat.le_of_lt_succ (BitVec.isLt _)

theorem pack8888_channels (p : Word) : pack8888 (alphaOf p) (redOf p) (greenOf p) (blueOf p) = p := by
  apply BitVec.eq_of_toNat_eq
  rw [alphaOf_eq, redOf_eq, greenOf_eq, blueOf_eq,
    pack8888_toNat (by omega) (by omega) (by omega) (by omega)]
  omega

/-! ### The background -/

@[simp] theorem background_rgb565 (e : Rgb565Expand) (h : Half) :
    background e (h.setWidth 32) .rgb565 = to8888 e h := by
  rw [background, BitVec.setWidth_setWidth_of_le h (by decide), BitVec.setWidth_eq]

/-- An RGB565 background is opaque. -/
@[simp] theorem alphaOf_to8888 (e : Rgb565Expand) (h : Half) : alphaOf (to8888 e h) = 255 := by
  have hr := expand5_lt e (v := h.toNat / 2 ^ 11) (by omega)
  have hg := expand6_lt e (v := h.toNat / 2 ^ 5 % 64) (by omega)
  have hb := expand5_lt e (v := h.toNat % 32) (by omega)
  rw [alphaOf_eq, to8888_toNat]
  omega

/-! ### BlendPixel in its cases -/

theorem blendPixel_of_alphaOut_eq_zero {e : Rgb565Expand} {src d : Word} {df : PixelFormat}
    (h : alphaOut (alphaOf src) (alphaOf (background e d df)) = 0) : blendPixel e src d df = d := if_pos h

theorem blendPixel_argb8888 (e : Rgb565Expand) {src d : Word} (h : alphaOut (alphaOf src) (alphaOf d) ≠ 0) :
    blendPixel e src d .argb8888 = pack8888 (alphaOut (alphaOf src) (alphaOf d))
      (overChannel (alphaOf src) (alphaOf d) (redOf src) (redOf d))
      (overChannel (alphaOf src) (alphaOf d) (greenOf src) (greenOf d))
      (overChannel (alphaOf src) (alphaOf d) (blueOf src) (blueOf d)) := if_neg h

/-- The guard never holds for an RGB565 destination. -/
theorem blendPixel_rgb565 (e : Rgb565Expand) (src : Word) (h : Half) :
    blendPixel e src (h.setWidth 32) .rgb565 =
      (pack565 (overChannel (alphaOf src) 255 (redOf src) (redOf (to8888 e h)))
        (overChannel (alphaOf src) 255 (greenOf src) (greenOf (to8888 e h)))
        (overChannel (alphaOf src) 255 (blueOf src) (blueOf (to8888 e h)))).setWidth 32 := by
  have hout : alphaOut (alphaOf src) 255 ≠ 0 := by simp [alphaOut_eq_zero_iff (alphaOf_le src)]
  simp only [blendPixel, background_rgb565, alphaOf_to8888, if_neg hout]

/-! ### Opaque and transparent foregrounds -/

theorem blendPixel_argb8888_opaque (e : Rgb565Expand) {src : Word} (hsrc : alphaOf src = 255) (d : Word) :
    blendPixel e src d .argb8888 = src := by
  have hout : alphaOut (alphaOf src) (alphaOf d) ≠ 0 := by rw [hsrc, alphaOut_opaque]; decide
  calc blendPixel e src d .argb8888
      = pack8888 (alphaOf src) (redOf src) (greenOf src) (blueOf src) := by
        simp only [blendPixel_argb8888 e hout, hsrc, alphaOut_opaque, overChannel_opaque]
    _ = src := pack8888_channels src

theorem blendPixel_rgb565_opaque (e : Rgb565Expand) {src : Word} (hsrc : alphaOf src = 255) (h : Half) :
    blendPixel e src (h.setWidth 32) .rgb565 = (to565 src).setWidth 32 := by
  simp only [blendPixel_rgb565, hsrc, overChannel_opaque, to565]

/-- Over a background that is transparent too, the guard keeps the word; otherwise each channel is the background's. -/
theorem blendPixel_argb8888_transparent (e : Rgb565Expand) {src : Word} (hsrc : alphaOf src = 0) (d : Word) :
    blendPixel e src d .argb8888 = d := by
  have hout : alphaOut (alphaOf src) (alphaOf d) = alphaOf d := by rw [hsrc, alphaOut_transparent]
  rcases Nat.eq_zero_or_pos (alphaOf d) with hzero | hpos
  · exact blendPixel_of_alphaOut_eq_zero (hout.trans hzero)
  · calc blendPixel e src d .argb8888
        = pack8888 (alphaOf d) (redOf d) (greenOf d) (blueOf d) := by
          simp only [blendPixel_argb8888 e (hout.trans_ne hpos.ne'), hsrc, alphaOut_transparent,
            overChannel_transparent hpos]
      _ = d := pack8888_channels d

/-- The opaque background's expanded channels are packed again, which gives the pixel back. -/
theorem blendPixel_rgb565_transparent (e : Rgb565Expand) {src : Word} (hsrc : alphaOf src = 0) (h : Half) :
    blendPixel e src (h.setWidth 32) .rgb565 = h.setWidth 32 := by
  have hchannel := overChannel_transparent (ab := 255) (by decide)
  calc blendPixel e src (h.setWidth 32) .rgb565
      = (to565 (to8888 e h)).setWidth 32 := by simp only [blendPixel_rgb565, hsrc, hchannel, to565]
    _ = h.setWidth 32 := by rw [to565_to8888]

/-- Settles O57: the identities of the formula's arithmetic, carried to the pixels of both destination formats. -/
theorem opaqueAndTransparentForegrounds : Obligations.OpaqueAndTransparentForegrounds := by
  intro e src d h
  refine ⟨fun hsrc => ⟨blendPixel_argb8888_opaque e hsrc d, blendPixel_rgb565_opaque e hsrc h⟩,
    fun hsrc => ⟨blendPixel_argb8888_transparent e hsrc d, blendPixel_rgb565_transparent e hsrc h⟩,
    fun ab cf cb _ => ⟨alphaMult_opaque ab, alphaOut_opaque ab, overChannel_opaque ab cf cb⟩,
    fun ab cf cb => ⟨alphaMult_transparent ab, alphaOut_transparent ab,
      fun hab => overChannel_transparent hab cf cb⟩,
    fun af ab => alphaOut_eq_zero_iff, ?_, fun hout => blendPixel_of_alphaOut_eq_zero hout⟩
  rw [background_rgb565, alphaOf_to8888]

end Sys2Proof.Machine
end

section
/-! PROOF. The encoder and the decoder are inverse to each other (30_encoding R110 to R126). -/

namespace Sys2Proof.Machine

open Sys2Proof.Claims

/-! ### Decoding a command's word -/

/-- The word of a command is its opcode byte under its opcode's mask (30_encoding R118). -/
theorem encode_and_mask (i : Instr) :
    encode i &&& (0xFF#32 ||| reservedMask (formatOf (instrOpcode i))) = (opcodeByte (instrOpcode i)).setWidth 32 := by
  change Laws.EncodingRow.Statement i
  cases i with
  | nop => exact Laws.EncodingRow.nop
  | resetDc => exact Laws.EncodingRow.resetDc
  | restart => exact Laws.EncodingRow.restart
  | loadDqt => exact Laws.EncodingRow.loadDqt
  | loadDht => exact Laws.EncodingRow.loadDht
  | decodeBlock comp dcsel acsel => exact Laws.EncodingRow.decodeBlock comp dcsel acsel
  | idct qsel lshift raw => exact Laws.EncodingRow.idct qsel lshift raw
  | upsample hr vr => exact Laws.EncodingRow.upsample hr vr
  | ycc2rgb gray => exact Laws.EncodingRow.ycc2rgb gray
  | cvt565To8888 => exact Laws.EncodingRow.cvt565To8888
  | cvt8888To565 => exact Laws.EncodingRow.cvt8888To565
  | blend sfmt dfmt => exact Laws.EncodingRow.blend sfmt dfmt

/-- A word with an opcode's byte and no reserved bit set decodes to the fields it holds. -/
theorem decode_of_fields {w : Word} {op : Opcode} (hop : w.extractLsb' 0 8 = opcodeByte op)
    (hreserved : w &&& reservedMask (formatOf op) = 0#32) : decode w = .ok (extract w op) := by
  simp [decode, hop, hreserved]

/-- A word that decodes has its opcode's byte, no reserved bit set, and decodes to the fields it holds. -/
theorem fields_of_decode {w : Word} {i : Instr} (h : decode w = .ok i) :
    w.extractLsb' 0 8 = opcodeByte (instrOpcode i) ∧ w &&& reservedMask (formatOf (instrOpcode i)) = 0#32 ∧
      i = extract w (instrOpcode i) := by
  obtain ⟨hop, hreserved⟩ := exists_decode_iff.1 ⟨i, h, rfl⟩
  rw [decode_of_fields hop hreserved, Except.ok.injEq] at h
  exact ⟨hop, hreserved, h.symm⟩

/-- The operand fields lie apart from each other and from OP, so each is read back: a check of every field value. -/
theorem extract_encode (i : Instr) : extract (encode i) (instrOpcode i) = i := by
  cases i with
  | nop | resetDc | restart | loadDqt | loadDht | cvt565To8888 | cvt8888To565 => rfl
  | decodeBlock comp dcsel acsel => revert comp dcsel acsel; decide
  | idct qsel lshift raw => revert qsel lshift raw; decide
  | upsample hr vr => revert hr vr; decide
  | ycc2rgb gray => revert gray; decide
  | blend sfmt dfmt => cases sfmt <;> cases dfmt <;> decide

/-- Settles O1: the word of a command passes the decoder's two checks, and its fields are those of the command. -/
theorem decodeOfEncodeIsTheCommand : Obligations.DecodeOfEncodeIsTheCommand := by
  intro i
  obtain ⟨hop, hreserved⟩ := and_mask_eq_iff.1 (encode_and_mask i)
  rw [decode_of_fields hop hreserved, extract_encode]

/-! ### Encoding a word's command -/

/-- A two-bit field put back at its place is the word under the field's mask. -/
theorem pairAt_extract (w : Word) (n : Nat) : pairAt (w.extractLsb' n 2) n = w &&& 3#32 <<< n := by
  apply BitVec.eq_of_getLsbD_eq
  intro i hi
  have hthree : ∀ j (hj : j < 32), (3#32)[j] = decide (j < 2) := by decide
  by_cases hn : i < n
  · simp [pairAt, hn]
  · have hback : n + (i - n) = i := by omega
    simp [pairAt, hn, hthree, hback, hi, Bool.and_comm]

/-- A one-bit field put back at its place is the word under the field's mask. -/
theorem flagAt_getLsbD (w : Word) (n : Nat) : flagAt (w.getLsbD n) n = w &&& 1#32 <<< n := by
  apply BitVec.eq_of_getLsbD_eq
  intro i hi
  by_cases hn : i < n
  · simp [flagAt, hn]
  · by_cases he : i = n
    · simp [flagAt, he, Bool.and_comm]
    · have hoff : i - n ≠ 0 := by omega
      simp [flagAt, hn, hoff, hi]

theorem pixelFormatBit_of (b : Bool) : pixelFormatBit (pixelFormatOf b) = b := by cases b <;> rfl

/-- The operand fields of a word are its bits outside OP and the reserved bits. -/
theorem operandBits_extract (w : Word) (op : Opcode) :
    operandBits (extract w op) = w &&& ~~~(0xFF#32 ||| reservedMask (formatOf op)) := by
  cases op with
  | nop | resetDc | restart | loadDqt | loadDht | cvt565To8888 | cvt8888To565 =>
    exact (BitVec.and_zero (x := w)).symm
  | decodeBlock | idct =>
    simp only [extract, operandBits, pairAt_extract, flagAt_getLsbD, ← BitVec.and_or_distrib_left]
    rfl
  | upsample | ycc2rgb =>
    simp only [extract, operandBits, pairAt_extract, flagAt_getLsbD, ← BitVec.and_or_distrib_left]
    rfl
  | blend =>
    simp only [extract, operandBits, pixelFormatBit_of, flagAt_getLsbD, ← BitVec.and_or_distrib_left]
    rfl

/-- Settles O2: the bits of the word under its opcode's mask are OP, and the others are its fields. -/
theorem encodeOfDecodeIsTheWord : Obligations.EncodeOfDecodeIsTheWord := by
  intro w i h
  obtain ⟨hop, hreserved, hfields⟩ := fields_of_decode h
  calc encode i
      = w &&& (0xFF#32 ||| reservedMask (formatOf (instrOpcode i))) |||
          w &&& ~~~(0xFF#32 ||| reservedMask (formatOf (instrOpcode i))) := by
        rw [encode, ← and_mask_eq_iff.2 ⟨hop, hreserved⟩, ← operandBits_extract, ← hfields]
    _ = w := by rw [← BitVec.and_or_distrib_left, BitVec.or_not_self, BitVec.and_allOnes]

/-- Settles O3: the decoder run on each word. -/
theorem wordsOfTheSpecDecode : Obligations.WordsOfTheSpecDecode := by
  unfold Obligations.WordsOfTheSpecDecode
  decide

end Sys2Proof.Machine
end

section
/-! PROOF. How every command ends, and the invariant every step keeps (10_state §3, 40_control R140 to R144, 70_reset
R372, R379). -/

namespace Sys2Proof.Machine

open Sys2Proof.Claims

/-! ### What a command's body keeps -/

/-- `u` has the STATUS, RESULT and ERR_ADDR of `s`, and the internal state of `u` meets the machine's invariant if that of
`s` does: what holds of the state in which a command completes or raises. -/
structure KeepsInvariant (s u : State) : Prop where
  done : u.done = s.done
  err : u.err = s.err
  errcode : u.errcode = s.errcode
  result : u.result = s.result
  errAddr : u.errAddr = s.errAddr
  mem : Memory.wf s.mem = true → Memory.wf u.mem = true
  bits : s.bitcnt ≤ 8 → u.bitcnt ≤ 8
  tables : (∀ h : Fin 4, s.hv.get h = true → Built (s.ht.get h)) → ∀ h : Fin 4, u.hv.get h = true → Built (u.ht.get h)

theorem KeepsInvariant.refl (s : State) : KeepsInvariant s s :=
  ⟨rfl, rfl, rfl, rfl, rfl, id, id, id⟩

/-- The command that started in `s` has ended in `t`, by `complete` or by `raise`. -/
def EndsIn (s t : State) : Prop :=
  ∃ u, KeepsInvariant s u ∧ ((∃ v, t = u.complete v) ∨ ∃ code a, t = u.raise code a)

theorem KeepsInvariant.complete {s u : State} (h : KeepsInvariant s u) (v : Word) : EndsIn s (u.complete v) :=
  ⟨u, h, .inl ⟨v, rfl⟩⟩

theorem KeepsInvariant.raise {s u : State} (h : KeepsInvariant s u) (code : ErrCode) (a : Word) :
    EndsIn s (u.raise code a) :=
  ⟨u, h, .inr ⟨code, a, rfl⟩⟩

theorem keepsInvariant_of_mem {s : State} {m : Memory} (d : Nat) (h : Memory.wf s.mem = true → Memory.wf m = true) :
    KeepsInvariant s { s with mem := m, draws := d } :=
  ⟨rfl, rfl, rfl, rfl, rfl, h, id, id⟩

theorem keepsInvariant_drawWrites (plan : List Access) (s : State) : KeepsInvariant s (s.drawWrites plan) := by
  have hwf := wf_drawWrites (plan := plan) (s := s)
  obtain ⟨m, d, heq⟩ := drawWrites_frame plan s
  rw [heq] at hwf ⊢
  exact keepsInvariant_of_mem d hwf

/-! ### Prologues and bodies -/

theorem afterPrologue_ends {s t : State} {p : Prologue} {body : Answer} (h : afterPrologue p s body = .next t)
    (hb : body = .next t → EndsIn s t) : EndsIn s t := by
  obtain ⟨_, hbody⟩ | ⟨_, rfl⟩ | ⟨code, a, _, rfl⟩ := afterPrologue_next h
  · exact hb hbody
  · exact (KeepsInvariant.refl s).complete _
  · exact (KeepsInvariant.refl s).raise _ _

theorem perform_ends {s finished stopped t : State} {before plan : List Access}
    (h : perform s before plan finished stopped = .next t) (hf : EndsIn s finished) (hs : KeepsInvariant s stopped) :
    EndsIn s t := by
  obtain ⟨_, rfl⟩ | ⟨x, _, _, rfl⟩ := perform_next h
  · exact hf
  · exact hs.raise _ _

/-- The rectangle commands and IDCT: a body that only writes memory. -/
theorem planned_ends {s t : State} {p : Prologue} {plan : List Access} {m : Memory}
    (hm : Memory.wf s.mem = true → Memory.wf m = true)
    (h : afterPrologue p s (perform s [] plan ((s.setMem m).complete 0#32) (s.drawWrites plan)) = .next t) :
    EndsIn s t :=
  afterPrologue_ends h fun hbody =>
    perform_ends hbody ((keepsInvariant_of_mem s.draws hm).complete _) (keepsInvariant_drawWrites plan s)

theorem execRect_ends {s t : State} {p : Prologue} {ps : List Pixel} (h : execRect s p ps = .next t) : EndsIn s t :=
  planned_ends wf_runPixels h

/-! ### LOAD_DHT commits well-built slots only -/

/-- The slot made of legal counts and their symbols holds the canonical code of the counts (41_tables R167). -/
theorem built_huffOf {counts values : List Byte} (hlen : counts.length = 16) (hok : (build counts).2 = true)
    (htotal : totalOf counts ≤ 256) (hvalues : values.length = totalOf counts) :
    Built (huffOf (build counts).1 values) := by
  have hrows : (huffOf (build counts).1 values).rows.toList = (build counts).1 := by
    apply List.ext_getElem
    · simp [build_length, hlen]
    · intro i _ hi
      simp [huffOf, hi]
  rw [Built, hrows, build_count]
  exact ⟨hok, htotal, rfl, hvalues⟩

/-- The counts of a table that raises no error are a code of at most 256 symbols (41_tables R165, R168). -/
theorem countsError_eq_none {rem : Nat} {counts : List Byte} (h : countsError rem counts = none) :
    totalOf counts ≤ 256 ∧ (build counts).2 = true ∧ 17 + totalOf counts ≤ rem := by
  unfold countsError at h
  split at h
  · cases h
  split at h
  · cases h
  split at h
  · cases h
  · exact ⟨by omega, by simpa using ‹¬(build counts).2 = false›, by omega⟩

/-- Every valid Huffman slot is well built (10_state R56, 41_tables R169). -/
def SlotsBuilt (s : State) : Prop := ∀ h : Fin 4, s.hv.get h = true → Built (s.ht.get h)

theorem vector_get_set_eq {α : Type} {n : Nat} (v : Vector α n) (i : Fin n) (x : α) : (v.set i x).get i = x :=
  Vector.getElem_set_self i.isLt

theorem vector_get_set_ne {α : Type} {n : Nat} (v : Vector α n) {i j : Fin n} (x : α) (h : j ≠ i) :
    (v.set i x).get j = v.get j := by
  have hval : i.val ≠ j.val := fun e => h (Fin.ext e.symm)
  exact Vector.getElem_set_ne i.isLt j.isLt hval

theorem SlotsBuilt.setHuff {s : State} (hs : SlotsBuilt s) (h : Fin 4) {t : HuffTable} (ht : Built t) :
    SlotsBuilt (s.setHuff h t) := by
  intro k hk
  by_cases e : k = h
  · subst e
    rw [State.setHuff_ht, vector_get_set_eq]
    exact ht
  · rw [State.setHuff_hv, vector_get_set_ne _ _ e] at hk
    rw [State.setHuff_ht, vector_get_set_ne _ _ e]
    exact hs k hk

theorem SlotsBuilt.dropHuff {s : State} (hs : SlotsBuilt s) (h : Fin 4) : SlotsBuilt (s.dropHuff h) := by
  intro k hk
  by_cases e : k = h
  · subst e
    rw [State.dropHuff_hv, vector_get_set_eq] at hk
    cases hk
  · rw [State.dropHuff_hv, vector_get_set_ne _ _ e] at hk
    rw [State.dropHuff_ht, vector_get_set_ne _ _ e]
    exact hs k hk

theorem huffTables_slotsBuilt (start : Word) (fuel rem : Nat) (p : Word) (n : Nat) {s : State} (hs : SlotsBuilt s) :
    SlotsBuilt (huffTables start fuel rem p n s).state := by
  induction fuel generalizing rem p n s with
  | zero => exact hs
  | succ fuel ih =>
    rw [huffTables]
    split
    · exact hs
    split
    · exact hs
    split
    · exact hs
    split
    · exact hs
    split
    · exact hs.dropHuff _
    rename_i h _ _ _ hcounts
    split
    · exact hs.dropHuff h
    rename_i herror
    split
    · exact hs.dropHuff h
    · rename_i hvalues
      obtain ⟨htotal, hok, _⟩ := countsError_eq_none herror
      exact ih _ _ _ (hs.setHuff h
        (built_huffOf (fetchBytes_length hcounts) hok htotal (fetchBytes_length hvalues)))

/-- The state LOAD_DHT ends in. -/
theorem keepsInvariant_loadDhtEnd (s : State) : KeepsInvariant s (loadDhtEnd s).state := by
  obtain ⟨a, e, h⟩ | ⟨rem, h⟩ := loadSegment_cases s 19
    fun rem => huffTables s.srcAddr rem rem (s.srcAddr + 2#32) 0 s
  · rw [loadDhtEnd, h]
    exact KeepsInvariant.refl s
  · have hbuilt := fun hs => huffTables_slotsBuilt s.srcAddr rem rem (s.srcAddr + 2#32) 0 (s := s) hs
    obtain ⟨ht, hv, d, heq⟩ := huffTables_frame s.srcAddr rem rem (s.srcAddr + 2#32) 0 s
    rw [loadDhtEnd, h, heq]
    rw [heq] at hbuilt
    exact ⟨rfl, rfl, rfl, rfl, rfl, id, id, hbuilt⟩

/-! ### How every command ends -/

theorem execLoadDqt_ends {s t : State} (h : execLoadDqt s = .next t) : EndsIn s t := by
  obtain ⟨qt, qv, d, hend⟩ := execLoadDqt_next h
  have hload : KeepsInvariant s { s with qt := qt, qv := qv, draws := d } := ⟨rfl, rfl, rfl, rfl, rfl, id, id, id⟩
  obtain ⟨v, rfl⟩ | ⟨code, a, rfl⟩ := hend
  · exact hload.complete v
  · exact hload.raise code a

theorem execLoadDht_ends {s t : State} (h : execLoadDht s = .next t) : EndsIn s t := by
  obtain ⟨_, rfl⟩ | ⟨code, a, _, rfl⟩ := loadAnswer_next h
  · exact (keepsInvariant_loadDhtEnd s).complete _
  · exact (keepsInvariant_loadDhtEnd s).raise code a

/-- The state a DECODE_BLOCK body error leaves: its free bit count is one of 0 to 8. -/
theorem keepsInvariant_decodeStopped (s : State) (c : Fin 3) : KeepsInvariant s (decodeStopped s c) := by
  have hdraw : KeepsInvariant s (s.drawEntropy c) :=
    ⟨rfl, rfl, rfl, rfl, rfl, id, fun _ => Nat.le_of_lt_succ (Config.freeBitCount s.draws).isLt, id⟩
  have hwrites := keepsInvariant_drawWrites (decodePlan s) (s.drawEntropy c)
  exact ⟨hwrites.done, hwrites.err, hwrites.errcode, hwrites.result, hwrites.errAddr, hwrites.mem ∘ hdraw.mem,
    hwrites.bits ∘ hdraw.bits, hwrites.tables ∘ hdraw.tables⟩

theorem decodeBody_ends {s t : State} {c : Fin 3} {dc ac : Fin 4} (h : decodeBody s c dc ac = .next t) :
    EndsIn s t := by
  unfold decodeBody at h
  split at h
  · obtain ⟨code, a, _, rfl⟩ := stopWith_next h
    exact (keepsInvariant_decodeStopped s c).raise code a
  · rename_i b r hblock
    refine perform_ends h (KeepsInvariant.complete ?_ _) (keepsInvariant_decodeStopped s c)
    exact ⟨rfl, rfl, rfl, rfl, rfl, wf_storeHalves, decodeCoeffs_cnt hblock, id⟩

theorem exec_ends {i : Instr} {s t : State} (h : exec i s = .next t) : EndsIn s t := by
  cases i with
  | nop => cases h; exact (KeepsInvariant.refl s).complete _
  | resetDc =>
    cases h
    exact KeepsInvariant.complete (s := s) (u := s.clearPred) ⟨rfl, rfl, rfl, rfl, rfl, id, id, id⟩ _
  | restart =>
    rw [exec, execRestart] at h
    split at h <;> cases h
    · exact (KeepsInvariant.refl s).raise _ _
    · exact KeepsInvariant.complete (s := s) (u := (s.setReader (s.bsAddr + 2#32) 0#8 0).clearPred)
        ⟨rfl, rfl, rfl, rfl, rfl, id, fun _ => Nat.zero_le 8, id⟩ _
  | loadDqt => exact execLoadDqt_ends h
  | loadDht => exact execLoadDht_ends h
  | decodeBlock comp dcsel acsel =>
    rw [exec, execDecodeBlock] at h
    split at h
    · cases h
      exact (KeepsInvariant.refl s).raise _ _
    · exact afterPrologue_ends h decodeBody_ends
  | idct qsel lshift raw =>
    rw [exec, execIdct] at h
    split at h
    · cases h
      exact (KeepsInvariant.refl s).raise _ _
    · exact planned_ends wf_idctMem h
  | upsample hr vr => exact execRect_ends h
  | ycc2rgb gray => exact execRect_ends h
  | cvt565To8888 => exact execRect_ends h
  | cvt8888To565 => exact execRect_ends h
  | blend sfmt dfmt => exact execRect_ends h

/-- Settles O9: a command ends by `complete` or by `raise`, with STATUS as it was before. -/
theorem everyCommandEndsInExactlyOneOutcome : Obligations.EveryCommandEndsInExactlyOneOutcome := by
  refine ⟨fun i s t hdone herr h => ?_, ?_, fun _ _ => rfl⟩
  · obtain ⟨u, hu, ⟨v, rfl⟩ | ⟨code, a, rfl⟩⟩ := exec_ends h
    · exact ⟨rfl, .inl ⟨rfl, hu.err.trans herr⟩⟩
    · exact ⟨rfl, .inr ⟨hu.done.trans hdone, rfl⟩⟩
  · have hbits : ∀ e ∈ [(ErrCode.illegal, 1#4), (.align, 2#4), (.bus, 3#4), (.segLength, 4#4), (.tableSpec, 5#4),
        (.huffTable, 6#4), (.noTable, 7#4), (.huffCode, 8#4), (.coef, 9#4), (.trunc, 10#4), (.marker, 11#4),
        (.sampling, 12#4)], errBits e.1 = e.2 := by decide
    intro e he s a
    rw [State.raise, hbits e he]

/-! ### The invariant -/

/-- Every error code is one of 1 to 12 (60_exceptions R331). -/
theorem errBits_range (code : ErrCode) : errBits code ≠ 0#4 ∧ (errBits code).toNat ≤ 12 := by
  cases code <;> decide

/-- A command that started as acceptance leaves the flags ends with legal flags. -/
theorem EndsIn.flagsLegal {s t : State} (h : EndsIn s t) (hs : FlagsLegal s) (hbusy : s.busy = true) : FlagsLegal t := by
  obtain ⟨hdone, herr, hresult, herrAddr⟩ := hs.busy_clear hbusy
  obtain ⟨u, hu, ⟨v, rfl⟩ | ⟨code, a, rfl⟩⟩ := h
  · have herr' : u.err = false := hu.err.trans herr
    have hcode : u.errcode = 0#4 := hu.errcode.trans (hs.errcode_zero.1 herr)
    constructor <;> simp [herr', hcode, hu.errAddr, herrAddr]
  · have hdone' : u.done = false := hu.done.trans hdone
    have hrange := errBits_range code
    constructor <;> simp [hdone', hrange, hu.result, hresult]

theorem EndsIn.inv {s t : State} (h : EndsIn s t) (hs : s.Inv) (hbusy : s.busy = true) : t.Inv := by
  have hflags := h.flagsLegal hs.flags hbusy
  obtain ⟨u, hu, ⟨v, rfl⟩ | ⟨code, a, rfl⟩⟩ := h
  · exact ⟨hu.mem hs.mem, hflags, hu.bits hs.bits, hu.tables hs.tables⟩
  · exact ⟨hu.mem hs.mem, hflags, hu.bits hs.bits, hu.tables hs.tables⟩

/-- Every reset state meets the invariant: its flags are clear and its table slots invalid. -/
theorem AtReset.inv {s : State} (h : AtReset s) : s.Inv := by
  obtain ⟨hmem, heq⟩ := h
  rw [heq]
  refine ⟨hmem, ?_, Nat.zero_le 8, fun k hk => ?_⟩
  · constructor <;> simp [State.reset]
  · simp [State.reset, Vector.get] at hk

theorem atReset_resetRegisters {s : State} (h : Memory.wf s.mem = true) : AtReset s.resetRegisters := ⟨h, rfl⟩

/-- Settles O60: the flags of the R372 state are clear and its table slots invalid. -/
theorem resetStateMeetsTheInvariant : Obligations.ResetStateMeetsTheInvariant :=
  have hreset : AtReset State.reset := ⟨rfl, rfl⟩
  ⟨hreset.inv, hreset, fun _ h => h.inv, fun _ h => atReset_resetRegisters h⟩

/-! ### The host's moves -/

theorem inv_softReset {s : State} (h : s.Inv) : s.softReset.Inv := by
  unfold State.softReset
  split
  · exact (atReset_resetRegisters (wf_drawWrites h.mem)).inv
  · exact (atReset_resetRegisters h.mem).inv

theorem inv_clearFlags {s : State} (h : s.Inv) (v : Word) : (s.clearFlags v).Inv := by
  obtain ⟨hzero, hrange, hone, hbusy, herr, hdone⟩ := h.flags
  refine ⟨h.mem, ?_, h.bits, h.tables⟩
  constructor
  · rw [State.clearFlags_err, State.clearFlags_errcode]
    cases v.getLsbD 2 <;> simp [hzero]
  · rw [State.clearFlags_errcode]
    cases v.getLsbD 2 <;> simp [hrange]
  · simp only [State.clearFlags_done, State.clearFlags_err, Bool.and_eq_true]
    exact fun ⟨⟨hd, _⟩, he, _⟩ => hone ⟨hd, he⟩
  · intro hb
    obtain ⟨hd, he, hr, ha⟩ := hbusy hb
    simp [hd, he, hr, ha]
  · simp only [State.clearFlags_err, Bool.and_eq_true]
    exact fun ⟨he, _⟩ => herr he
  · simp only [State.clearFlags_done, Bool.and_eq_true]
    exact fun ⟨hd, _⟩ => hdone hd

theorem inv_accept {s : State} (h : s.Inv) (w : Word) : (s.accept w).Inv := by
  refine ⟨h.mem, ?_, h.bits, h.tables⟩
  constructor <;> simp

theorem inv_unlessBusy {s u : State} (h : s.Inv) (hu : u.Inv) : (s.unlessBusy u).Inv := by
  unfold State.unlessBusy
  split
  · exact ⟨h.mem, { h.flags with }, h.bits, h.tables⟩
  · exact hu

theorem inv_writeReg {s : State} (h : s.Inv) (v : Word) (r : Reg) : (writeReg s v r).Inv := by
  cases r with
  | id | version | result | errAddr | tblValid | bsBitbuf | bsBitcnt => exact h
  | ctrl =>
    rw [writeReg]
    split
    · exact inv_softReset h
    · exact ⟨h.mem, { h.flags with }, h.bits, h.tables⟩
  | status => exact inv_clearFlags h v
  | cmd => exact inv_unlessBusy h (inv_accept h v)
  | bsAddr => exact inv_unlessBusy h ⟨h.mem, { h.flags with }, Nat.zero_le 8, h.tables⟩
  | srcAddr | srcStride | dstAddr | dstStride | auxAddr | aux2Addr | auxStride | dim | bsEnd | dcPred0 | dcPred1
  | dcPred2 => exact inv_unlessBusy h ⟨h.mem, { h.flags with }, h.bits, h.tables⟩

theorem cfg_writeReg (s : State) (v : Word) (r : Reg) : (writeReg s v r).cfg = s.cfg := by
  have hunless : ∀ u : State, u.cfg = s.cfg → (s.unlessBusy u).cfg = s.cfg := by
    intro u hu
    unfold State.unlessBusy
    split
    · rfl
    · exact hu
  cases r with
  | id | version | result | errAddr | tblValid | bsBitbuf | bsBitcnt | status => rfl
  | ctrl =>
    rw [writeReg]
    split
    · obtain ⟨m, d, heq⟩ := softReset_frame s
      rw [heq]
      rfl
    · rfl
  | cmd | bsAddr | srcAddr | srcStride | dstAddr | dstStride | auxAddr | aux2Addr | auxStride | dim | bsEnd | dcPred0
  | dcPred1 | dcPred2 => exact hunless _ rfl

theorem inv_writeOffset {s : State} (h : s.Inv) (off : Nat) (v : Word) :
    (writeOffset s off v).Inv ∧ (writeOffset s off v).cfg = s.cfg := by
  unfold writeOffset
  split
  · exact ⟨inv_writeReg h v _, cfg_writeReg s v _⟩
  · exact ⟨h, rfl⟩

/-! ### Every step -/

theorem inv_engineStep {s t : State} (h : s.Inv) (hs : engineStep s = .next t) : t.Inv ∧ t.cfg = s.cfg := by
  unfold engineStep at hs
  split at hs
  · rename_i hbusy
    unfold execute at hs
    split at hs
    · exact ⟨(exec_ends hs).inv h hbusy, (exec_ruleFrame hs).params.cfg⟩
    · cases hs
      exact ⟨((KeepsInvariant.refl s).raise _ _).inv h hbusy, rfl⟩
  · cases hs
    exact ⟨h, rfl⟩

theorem inv_takeTurn {u : Turn} {s t : State} (h : s.Inv) (hs : takeTurn u s = .next t) : t.Inv ∧ t.cfg = s.cfg := by
  cases u with
  | engine => exact inv_engineStep h hs
  | read a n =>
    obtain ⟨d, rfl⟩ := hostRead_next hs
    exact ⟨⟨h.mem, { h.flags with }, h.bits, h.tables⟩, rfl⟩
  | write a n v =>
    obtain ⟨_, rfl⟩ | ⟨_, rfl⟩ := hostWrite_next hs
    · exact inv_writeOffset h _ _
    · exact ⟨⟨Memory.wf_store n a v h.mem, { h.flags with }, h.bits, h.tables⟩, rfl⟩
  | hardwareReset =>
    cases hs
    exact ⟨(atReset_resetRegisters h.mem).inv, rfl⟩

theorem inv_step {s t : State} (h : s.Inv) (hs : step s = .next t) : t.Inv ∧ t.cfg = s.cfg := by
  obtain ⟨_, heq⟩ | ⟨u, us, _, heq⟩ := step_cases s
  · exact inv_engineStep h (heq ▸ hs)
  · have hrest : State.Inv { s with turns := us } := ⟨h.mem, { h.flags with }, h.bits, h.tables⟩
    rw [heq] at hs
    exact inv_takeTurn (s := { s with turns := us }) hrest hs

/-- Settles O59: the R372 state meets the invariant, and each move of the engine, the host and the platform keeps it. -/
theorem everyStepKeepsTheInvariant : Obligations.EveryStepKeepsTheInvariant := by
  refine ⟨fun s t h hs => inv_step h hs, fun s h => ?_⟩
  induction h with
  | reset s h => exact h.inv
  | step s t _ hs ih => exact (inv_step ih hs).1

end Sys2Proof.Machine
end

section
/-! PROOF. The host's side of the machine: what each register reads and each write does, the steps that make them, the two
resets, and the interrupt output (10_state R32 to R54, R60, 60_exceptions R340, 70_reset R370 to R372). -/

namespace Sys2Proof.Machine

open Sys2Proof.Claims

/-! ### The engine's turn -/

theorem step_of_no_turns {s : State} (h : s.turns = []) : step s = engineStep s := by
  rw [step, h]

theorem step_of_turn {s : State} {t : Turn} {ts : List Turn} (h : s.turns = t :: ts) :
    step s = takeTurn t { s with turns := ts } := by
  rw [step, h]

theorem engineStep_of_busy {s : State} {i : Instr} (hbusy : s.busy = true) (h : decode s.cmd = .ok i) :
    engineStep s = exec i s := by
  rw [engineStep, if_pos hbusy, execute_of_decode_ok h]

theorem engineStep_of_idle {s : State} (h : s.busy = false) : engineStep s = .next s := if_neg (by simp [h])

/-- Settles O7: the three ways a step is the engine's. -/
theorem stepRunsTheDecodedCommand : Obligations.StepRunsTheDecodedCommand := by
  refine ⟨fun s w i h => ?_, fun s i hbusy h => ⟨fun hts => ?_, fun ts hts => ?_⟩,
    fun s hidle => ⟨fun hts => ?_, fun ts hts => ?_⟩⟩
  · rw [step_withFetchWord, execute_of_decode_ok (s := s.accept w) h]
  · rw [step_of_no_turns hts, engineStep_of_busy hbusy h]
  · rw [step_of_turn hts]
    exact engineStep_of_busy (s := { s with turns := ts }) hbusy h
  · rw [step_of_no_turns hts, engineStep_of_idle hidle]
  · rw [step_of_turn hts]
    exact engineStep_of_idle (s := { s with turns := ts }) hidle

/-! ### Writes to the parameter registers -/

/-- Each parameter register's write is the one its entry of the list names, unless BUSY blocks it (10_state R54). -/
theorem writeOffset_parameter (s : State) (v : Word) :
    ∀ p ∈ parameterWrites s v, writeOffset s p.1 v = s.unlessBusy p.2 := by
  simp only [parameterWrites, List.forall_mem_cons]
  exact ⟨rfl, rfl, rfl, rfl, rfl, rfl, rfl, rfl, rfl, rfl, rfl, rfl, rfl, List.forall_mem_nil _⟩

theorem writeOffset_readOnly (s : State) (v : Word) : ∀ off ∈ readOnlyOffsets, writeOffset s off v = s := by
  simp only [readOnlyOffsets, List.forall_mem_cons]
  exact ⟨rfl, rfl, rfl, rfl, rfl, rfl, rfl, List.forall_mem_nil _⟩

/-- What a parameter register holds once the write its entry names is made: the value, or a predictor's low half
sign-extended (10_state R45 to R49, R52). -/
theorem readOffset_parameter (s : State) (v : Word) : ∀ p ∈ parameterWrites s v,
    readOffset p.2 p.1 = if p.1 ∈ [0x050, 0x054, 0x058] then (v.extractLsb' 0 16).signExtend 32 else v := by
  have hpred : ∀ c : Fin 3, readOffset { s with pred := s.pred.set c (v.extractLsb' 0 16) } (0x050 + 4 * c.val) =
      (v.extractLsb' 0 16).signExtend 32 := fun c => by rw [readOffset_dcPred, vector_get_set_eq]
  simp only [parameterWrites, List.forall_mem_cons]
  exact ⟨rfl, rfl, rfl, rfl, rfl, rfl, rfl, rfl, rfl, rfl, hpred 0, hpred 1, hpred 2, List.forall_mem_nil _⟩

/-- The offsets of the parameter registers, in order (10_state R32). -/
theorem parameterWrites_offsets (s : State) (v : Word) : (parameterWrites s v).map Prod.fst =
    [0x020, 0x024, 0x028, 0x02C, 0x030, 0x034, 0x038, 0x03C, 0x040, 0x044, 0x050, 0x054, 0x058] := rfl

theorem readOffset_writeOffset_parameter {s : State} (hidle : s.busy = false) (v : Word) {off : Nat}
    (hoff : off ∈ [0x020, 0x024, 0x028, 0x02C, 0x030, 0x034, 0x038, 0x03C, 0x040, 0x044, 0x050, 0x054, 0x058]) :
    readOffset (writeOffset s off v) off =
      if off ∈ [0x050, 0x054, 0x058] then (v.extractLsb' 0 16).signExtend 32 else v := by
  rw [← parameterWrites_offsets s v] at hoff
  obtain ⟨p, hp, rfl⟩ := List.mem_map.1 hoff
  rw [writeOffset_parameter s v p hp, State.unlessBusy_of_idle _ hidle, readOffset_parameter s v p hp]

/-! ### The host's read of a register -/

/-- A 32-bit host read at an offset of the window leaves what the register reads (10_state R32, 20_memory R85). -/
theorem hostRead_register (s : State) {off : Nat} (h : WindowOffset off) :
    hostRead s (s.cfg.engineBase + BitVec.ofNat 32 off) 4 = .next { s with hostData := (readOffset s off).toNat } := by
  have htouches : touchesWindow s (s.cfg.engineBase + BitVec.ofNat 32 off) 4 = true := by
    simp [touchesWindow, bytesFrom, inWindow_base_add s h]
  have hlegal : legalRegAccess s (s.cfg.engineBase + BitVec.ofNat 32 off) 4 = true := by
    simp [legalRegAccess, inWindow_base_add s h, windowOffset_base_add s h, h.2]
  rw [hostRead, if_pos htouches, if_pos hlegal, windowOffset_base_add s h]

theorem step_of_hostReads {s : State} {off : Nat} {ts : List Turn} (hoff : WindowOffset off) (h : HostReads s off ts) :
    step s = .next { s with turns := ts, hostData := (readOffset s off).toNat } := by
  rw [step_of_turn h]
  exact hostRead_register { s with turns := ts } hoff

/-- Settles O11: each entry of the register map by its write, and the host's step by the register it names. -/
theorem parameterAndReadOnlyRegisterWrites : Obligations.ParameterAndReadOnlyRegisterWrites := by
  intro s v
  refine ⟨writeOffset_parameter s v, writeOffset_readOnly s v,
    fun hidle => ⟨fun off hoff => ?_, fun off hoff => ?_⟩, fun off ts hoff => ⟨step_of_hostWrites hoff, step_of_hostReads hoff⟩⟩
  · have hword : ∀ off ∈ [0x020, 0x024, 0x028, 0x02C, 0x030, 0x034, 0x038, 0x03C, 0x040, 0x044],
        off ∉ [0x050, 0x054, 0x058] := by decide
    rw [readOffset_writeOffset_parameter hidle v (List.mem_append_left [0x050, 0x054, 0x058] hoff), if_neg (hword off hoff)]
  · have hmem := List.mem_append_right [0x020, 0x024, 0x028, 0x02C, 0x030, 0x034, 0x038, 0x03C, 0x040, 0x044] hoff
    rw [readOffset_writeOffset_parameter hidle v hmem, if_pos hoff]

/-! ### What STATUS, CTRL and TBL_VALID read -/

/-- The fields of STATUS (10_state R36). -/
theorem statusWord_fields (s : State) :
    (statusWord s).getLsbD 0 = s.busy ∧ (statusWord s).getLsbD 1 = s.done ∧ (statusWord s).getLsbD 2 = s.err ∧
    (statusWord s).getLsbD 3 = s.werr ∧ (statusWord s).extractLsb' 4 4 = 0#4 ∧
    (statusWord s).extractLsb' 8 4 = s.errcode ∧ (statusWord s).extractLsb' 12 20 = 0#20 := by
  unfold statusWord
  generalize s.errcode = c, s.werr = w, s.err = e, s.done = d, s.busy = b
  revert c w e d b
  decide

/-- The fields of CTRL (10_state R35). -/
theorem ctrlWord_fields (s : State) :
    (ctrlWord s).getLsbD 0 = s.doneIe ∧ (ctrlWord s).getLsbD 1 = s.errIe ∧ (ctrlWord s).extractLsb' 2 30 = 0#30 := by
  unfold ctrlWord
  generalize s.errIe = e, s.doneIe = d
  revert e d
  decide

/-- The fields of TBL_VALID (10_state R44). -/
theorem tblValidWord_fields (s : State) :
    (∀ q : Fin 3, (tblValidWord s).getLsbD q.val = s.qv.get q) ∧ (tblValidWord s).getLsbD 3 = false ∧
    (∀ h : Fin 4, (tblValidWord s).getLsbD (4 + h.val) = s.hv.get h) ∧ (tblValidWord s).extractLsb' 8 24 = 0#24 := by
  have hq : ∀ q : Fin 3, s.qv.get q = [s.qv[0], s.qv[1], s.qv[2]].getD q.val false := by
    intro q
    fin_cases q <;> rfl
  have hh : ∀ h : Fin 4, s.hv.get h = [s.hv[0], s.hv[1], s.hv[2], s.hv[3]].getD h.val false := by
    intro h
    fin_cases h <;> rfl
  simp only [hq, hh]
  unfold tblValidWord
  generalize s.hv[3] = h3, s.hv[2] = h2, s.hv[1] = h1, s.hv[0] = h0, s.qv[2] = q2, s.qv[1] = q1, s.qv[0] = q0
  revert h3 h2 h1 h0 q2 q1 q0
  decide

/-- The registers that read as one field of the state (10_state R41 to R43, R45 to R49). -/
theorem readOffset_fields (s : State) : ∀ p ∈ [(0x010, s.cmd), (0x014, s.result), (0x018, s.errAddr), (0x020, s.srcAddr),
    (0x024, s.srcStride), (0x028, s.dstAddr), (0x02C, s.dstStride), (0x030, s.auxAddr), (0x034, s.aux2Addr),
    (0x038, s.auxStride), (0x03C, s.dim), (0x040, s.bsAddr), (0x044, s.bsEnd)], readOffset s p.1 = p.2 := by
  simp only [List.forall_mem_cons]
  exact ⟨rfl, rfl, rfl, rfl, rfl, rfl, rfl, rfl, rfl, rfl, rfl, rfl, rfl, List.forall_mem_nil _⟩

theorem and_not_eq_ite (b c : Bool) : (b && !c) = if c then false else b := by
  cases b <;> cases c <;> rfl

/-- A write to STATUS: a 1 clears its flag (10_state R36, R39). -/
theorem clearFlags_eq (s : State) (v : Word) : s.clearFlags v = { s with
    done := if v.getLsbD 1 then false else s.done
    err := if v.getLsbD 2 then false else s.err
    errcode := if v.getLsbD 2 then 0#4 else s.errcode
    werr := if v.getLsbD 3 then false else s.werr } := by
  simp only [State.clearFlags, and_not_eq_ite]

/-- Settles O12: the fields of each register in turn. -/
theorem statusReadsItsFlagsAndClearsOnOnes : Obligations.StatusReadsItsFlagsAndClearsOnOnes := by
  intro s v
  obtain ⟨hbusy, hdone, herr, hwerr, hlow, hcode, hhigh⟩ := statusWord_fields s
  obtain ⟨hdoneIe, herrIe, hctrl⟩ := ctrlWord_fields s
  obtain ⟨hqv, hgap, hhv, htbl⟩ := tblValidWord_fields s
  have hbuf : (readOffset s 0x048).toNat = s.bitbuf.toNat := BitVec.toNat_setWidth_of_le (by decide)
  have hcnt : s.bitcnt ≤ 8 → (readOffset s 0x04C).toNat = s.bitcnt := by
    intro hle
    calc (readOffset s 0x04C).toNat
        = (BitVec.ofNat 4 s.bitcnt).toNat := BitVec.toNat_setWidth_of_le (by decide)
      _ = s.bitcnt := by rw [BitVec.toNat_ofNat, Nat.mod_eq_of_lt (by omega)]
  exact ⟨hbusy, hdone, herr, hwerr, hlow, hcode, hhigh, clearFlags_eq s v, hdoneIe, herrIe, hctrl, hqv, hgap, hhv, htbl,
    readOffset_fields s, hbuf, hcnt, readOffset_dcPred s⟩

/-! ### The interrupt output -/

/-- A CTRL write without SOFT_RESET sets the two enables (10_state R35). -/
theorem writeOffset_ctrl {s : State} {v : Word} (h : v.getLsbD 31 = false) :
    writeOffset s 0x008 v = { s with doneIe := v.getLsbD 0, errIe := v.getLsbD 1 } :=
  if_neg (by rw [h]; decide)

theorem irq_clearFlags {s : State} {v : Word} (hdone : v.getLsbD 1 = true) (herr : v.getLsbD 2 = true) :
    irq (s.clearFlags v) = false := by
  rw [irq, State.clearFlags_done, State.clearFlags_err, hdone, herr]
  simp

/-- Settles O15: the output is a function of DONE, ERR and their enables. -/
theorem interruptFollowsFlagsAndEnables : Obligations.InterruptFollowsFlagsAndEnables := by
  intro s
  refine ⟨by simp [irq], fun w => by simp [irq], fun v => irq_clearFlags, fun v herr => by simp [irq, herr],
    fun c a hdone => by simp [irq, hdone], fun v hv => ⟨writeOffset_ctrl hv, ?_⟩⟩
  rw [writeOffset_ctrl hv]
  rfl

/-! ### Accesses of another width or alignment -/

theorem touchesWindow_iff {s : State} {a : Word} {n : Nat} :
    touchesWindow s a n = true ↔ ∃ b ∈ bytesFrom a n, (b - s.cfg.engineBase).toNat < 0x1000 := by
  simp [touchesWindow, inWindow]

theorem legalRegAccess_iff {s : State} {a : Word} {n : Nat} : legalRegAccess s a n = true ↔
    n = 4 ∧ (a - s.cfg.engineBase).toNat < 0x1000 ∧ (a - s.cfg.engineBase).toNat % 4 = 0 := by
  simp [legalRegAccess, inWindow, windowOffset, and_assoc]

/-- Settles O16: both host accesses check the window first, then the width and the alignment. -/
theorem registerAccessOfAnotherWidthIsRefused : Obligations.RegisterAccessOfAnotherWidthIsRefused := by
  intro s a n v ts hwindow hillegal
  have htouches : touchesWindow { s with turns := ts } a n = true := touchesWindow_iff.2 hwindow
  have hlegal : ¬legalRegAccess { s with turns := ts } a n = true := fun h => hillegal (legalRegAccess_iff.1 h)
  constructor <;> intro hts <;> rw [step_of_turn hts]
  · rw [takeTurn, hostRead, if_pos htouches, if_neg hlegal]
  · rw [takeTurn, hostWrite, if_pos htouches, if_neg hlegal]

/-! ### Resets -/

theorem reset_vectors : (∀ c : Fin 3, State.reset.pred.get c = 0#16) ∧ (∀ q : Fin 3, State.reset.qv.get q = false) ∧
    ∀ h : Fin 4, State.reset.hv.get h = false := by decide

/-- Settles O13: both branches of a soft reset end in the reset values; the draws of an abort stay in the write set. -/
theorem softResetClearsTheEngine : Obligations.SoftResetClearsTheEngine := by
  intro s v hv
  have hreset : writeOffset s 0x008 v = s.softReset := if_pos hv
  have hmem : (s.busy = false → s.softReset.mem = s.mem) ∧
      (s.busy = true → SameMemoryOutside (writeBytes (pendingFootprint s).writes) s s.softReset) := by
    constructor <;> intro hbusy <;> rw [State.softReset]
    · rw [if_neg (by simp [hbusy])]
      rfl
    · rw [if_pos hbusy]
      exact fun a ha => readByte_drawWrites_of_not_mem ha
  rw [hreset]
  obtain ⟨hpred, hqv, hhv⟩ := reset_vectors
  obtain ⟨m, d, heq⟩ := softReset_frame s
  rw [heq] at hmem ⊢
  exact ⟨rfl, rfl, rfl, rfl, rfl, rfl, rfl, rfl, rfl, rfl, rfl, rfl, rfl, rfl, rfl, rfl, rfl, rfl, rfl, rfl, rfl, rfl,
    hpred, hqv, hhv, rfl, hmem⟩

/-- Past ID and VERSION no offset names them. -/
theorem regAt_past_version {off : Nat} (h : 0x008 ≤ off) : regAt off ≠ some .id ∧ regAt off ≠ some .version := by
  have hmap : ∀ k < 23, 2 ≤ k → regMap[k]? ≠ some .id ∧ regMap[k]? ≠ some .version := by decide
  obtain hlt | hge := Nat.lt_or_ge (off / 4) 23
  · exact hmap (off / 4) hlt (by omega)
  · rw [regAt_reserved (by omega)]
    exact ⟨nofun, nofun⟩

/-- Every register but ID and VERSION reads 0 after reset (70_reset R372). -/
theorem readOffset_at_reset {u : State} (hu : u = { State.reset with
      cfg := u.cfg, qt := u.qt, ht := u.ht, mem := u.mem, turns := u.turns, hostData := u.hostData, draws := u.draws })
    {off : Nat} (h : 0x008 ≤ off) : readOffset u off = 0#32 := by
  obtain ⟨hid, hversion⟩ := regAt_past_version h
  rw [readOffset]
  split
  · rename_i r hr
    rw [hu]
    cases r with
    | id => exact absurd hr hid
    | version => exact absurd hr hversion
    | ctrl => exact (by decide : ctrlWord State.reset = 0#32)
    | status => exact (by decide : statusWord State.reset = 0#32)
    | tblValid => exact (by decide : tblValidWord State.reset = 0#32)
    | cmd | result | errAddr | srcAddr | srcStride | dstAddr | dstStride | auxAddr | aux2Addr | auxStride
    | dim | bsAddr | bsEnd | bsBitbuf | bsBitcnt | dcPred0 | dcPred1 | dcPred2 => rfl
  · rfl

/-- Settles O14: the reset step leaves a state that differs from State.reset only in what reset gives no value for. -/
theorem hardwareResetLeavesTheResetValues : Obligations.HardwareResetLeavesTheResetValues := by
  intro s ts hts
  refine ⟨State.resetRegisters { s with turns := ts }, step_of_turn hts, rfl, rfl, rfl, fun u hu => ?_⟩
  have hvalues : u = { State.reset with
      cfg := u.cfg, qt := u.qt, ht := u.ht, mem := u.mem, turns := u.turns, hostData := u.hostData, draws := u.draws } := by
    rcases List.mem_pair.1 hu with rfl | rfl <;> rfl
  have hread := fun off => readOffset_at_reset hvalues (off := off)
  obtain ⟨hpred, hqv, hhv⟩ := reset_vectors
  refine ⟨?_, ?_, hread _ (by decide), hread _ (by decide), fun off _ h => hread off h, rfl, rfl, ?_⟩ <;> rw [hvalues]
  · rfl
  · rfl
  · exact ⟨rfl, hpred, hqv, hhv⟩

end Sys2Proof.Machine
end

section
/-! PROOF. Prologues: the table check, the alignment check and element addresses (20_memory R84, 30_encoding R119,
40_control R142). -/

namespace Sys2Proof.Machine

open Sys2Proof.Claims

/-! ### Slots and fields -/

theorem dcSlot_val (b : Bool) : (dcSlot b).val = b.toNat := by cases b <;> rfl

theorem acSlot_val (b : Bool) : (acSlot b).val = 2 + b.toNat := by cases b <;> rfl

theorem index3_eq_some_iff (f : BitVec 2) (k : Fin 3) : index3 f = some k ↔ f.toNat = k.val := by
  revert f k
  decide

theorem exists_index3_of_legal {f : BitVec 2} (h : legalIndex f = true) : ∃ k, index3 f = some k := by
  revert f
  decide

/-! ### The table check -/

theorem decodePrologue_of_missing {s : State} {d a : Bool}
    (h : ¬(s.hv.get (dcSlot d) = true ∧ s.hv.get (acSlot a) = true)) :
    decodePrologue s (dcSlot d) (acSlot a) = .error .noTable 0#32 := by
  rw [not_and_or, Bool.not_eq_true, Bool.not_eq_true] at h
  exact if_pos h

theorem decodePrologue_of_valid {s : State} {c : BitVec 2} {d a : Bool} (h : TablesValid s (.decodeBlock c d a)) :
    decodePrologue s (dcSlot d) (acSlot a) = alignPrologue (checkedRegs s (.decodeBlock c d a)) := by
  obtain ⟨hdc, hac⟩ : s.hv.get (dcSlot d) = true ∧ s.hv.get (acSlot a) = true := h
  exact if_neg (by simp [hdc, hac])

theorem idctPrologue_of_valid {s : State} {q : BitVec 2} {k : Fin 3} {lshift raw : Bool} (hq : index3 q = some k)
    (h : TablesValid s (.idct q lshift raw)) :
    idctPrologue s k raw = alignPrologue (checkedRegs s (.idct q lshift raw)) :=
  if_neg fun ⟨hraw, hmissing⟩ => by simp [h hraw k hq] at hmissing

/-- Settles O19: only DECODE_BLOCK and IDCT need tables, and their first check after the field values is for these. -/
theorem missingTableRaises : Obligations.MissingTableRaises := by
  refine ⟨fun s i hwf hmissing => ?_, fun b => ⟨dcSlot_val b, acSlot_val b⟩, index3_eq_some_iff⟩
  cases i with
  | decodeBlock comp d a =>
    obtain ⟨c, hc⟩ := exists_index3_of_legal hwf
    rw [exec, execDecodeBlock, hc]
    simp only [decodePrologue_of_missing hmissing, afterPrologue_error]
  | idct q lshift raw =>
    obtain ⟨k, hk⟩ := exists_index3_of_legal hwf
    have hmissing' : raw = false ∧ s.qv.get k = false := by
      have hneg : ¬(raw = false → ∀ k, index3 q = some k → s.qv.get k = true) := hmissing
      simpa [hk] using hneg
    have hprologue : idctPrologue s k raw = .error .noTable 0#32 := if_pos hmissing'
    rw [exec, execIdct, hk]
    simp only [hprologue, afterPrologue_error]
  | nop | resetDc | restart | loadDqt | loadDht | upsample | ycc2rgb | cvt565To8888 | cvt8888To565 | blend =>
    exact absurd trivial hmissing

/-! ### The alignment check -/

theorem misaligned_append {before rest : List (Word × Nat)} (h : Aligned before) :
    misaligned (before ++ rest) = misaligned rest := by
  induction before with
  | nil => rfl
  | cons r before ih =>
    obtain ⟨hr, hbefore⟩ := List.forall_mem_cons.1 h
    rw [List.cons_append, misaligned, if_neg (not_not.2 hr), ih hbefore]

theorem alignPrologue_of_aligned {regs : List (Word × Nat)} (h : Aligned regs) : alignPrologue regs = .pass := by
  have hnone : misaligned regs = none := by simpa [misaligned] using misaligned_append (rest := []) h
  rw [alignPrologue, hnone]

theorem alignPrologue_of_misaligned {before after : List (Word × Nat)} {v : Word} {n : Nat} (h : Aligned before)
    (hv : v.toNat % n ≠ 0) : alignPrologue (before ++ (v, n) :: after) = .error .align v := by
  have hfirst : misaligned (before ++ (v, n) :: after) = some v := by
    rw [misaligned_append h, misaligned, if_pos hv]
  rw [alignPrologue, hfirst]

theorem rectPrologue_of_area {s : State} (h : HasArea s) (regs : List (Word × Nat)) :
    rectPrologue s regs = alignPrologue regs := if_neg (not_or.2 h)

/-! ### A command past its first checks -/

/-- A command with a fixed list of accesses, its fields legal, its tables valid and its area not zero, is its alignment
check and then its body over the list (40_control R142 to R144). -/
theorem exec_of_planOf {s : State} {i : Instr} {plan : List Access} (hwf : WellFormed i = true) (ht : TablesValid s i)
    (hplan : planOf s i = some plan) (harea : rectOf s i ≠ none → HasArea s) :
    ∃ m, exec i s = afterPrologue (alignPrologue (checkedRegs s i)) s
      (perform s [] plan ((s.setMem m).complete 0#32) (s.drawWrites plan)) := by
  have hrect : ∀ ps, rectOf s i = some ps → rectPlan ps = plan →
      ∃ m, exec i s = afterPrologue (alignPrologue (checkedRegs s i)) s
        (perform s [] plan ((s.setMem m).complete 0#32) (s.drawWrites plan)) := by
    intro ps hps hplan'
    rw [exec_eq_execRect hwf hps, rectPrologue_of_area (harea (by simp [hps])), execRect, hplan']
    exact ⟨_, rfl⟩
  cases i with
  | idct q lshift raw =>
    obtain ⟨k, hk⟩ := exists_index3_of_legal hwf
    cases hplan
    rw [exec, execIdct, hk]
    simp only [idctPrologue_of_valid hk ht]
    exact ⟨_, rfl⟩
  | upsample | ycc2rgb | cvt565To8888 | cvt8888To565 | blend => exact hrect _ rfl (Option.some.inj hplan)
  | nop | resetDc | restart | loadDqt | loadDht | decodeBlock => cases hplan

/-- DECODE_BLOCK with legal fields and valid tables is its alignment check and then its body. -/
theorem exec_decodeBlock {s : State} {comp : BitVec 2} {d a : Bool} {c : Fin 3} (hc : index3 comp = some c)
    (ht : TablesValid s (.decodeBlock comp d a)) :
    exec (.decodeBlock comp d a) s = afterPrologue (alignPrologue (checkedRegs s (.decodeBlock comp d a))) s
      (decodeBody s c (dcSlot d) (acSlot a)) := by
  rw [exec, execDecodeBlock, hc]
  simp only [decodePrologue_of_valid ht]

/-- Every command that checks registers comes to its alignment check. -/
theorem exec_of_checkedRegs {s : State} {i : Instr} (hwf : WellFormed i = true) (ht : TablesValid s i)
    (harea : rectOf s i ≠ none → HasArea s) (hregs : checkedRegs s i ≠ []) :
    ∃ body, exec i s = afterPrologue (alignPrologue (checkedRegs s i)) s body := by
  cases i with
  | decodeBlock comp d a =>
    obtain ⟨c, hc⟩ := exists_index3_of_legal hwf
    exact ⟨_, exec_decodeBlock hc ht⟩
  | idct | upsample | ycc2rgb | cvt565To8888 | cvt8888To565 | blend =>
    obtain ⟨m, h⟩ := exec_of_planOf hwf ht rfl harea
    exact ⟨_, h⟩
  | nop | resetDc | restart | loadDqt | loadDht => exact absurd rfl hregs

/-! ### Element addresses and DIM -/

theorem elem_toNat (base stride : Word) (row col esz : Nat) :
    (elem base stride row col esz).toNat = (base.toNat + row * stride.toNat + col * esz) % 2 ^ 32 := by
  simp [elem, BitVec.toNat_add, BitVec.toNat_mul]

/-- Both element sizes divide the size of the address space, so the wrap keeps the alignment. -/
theorem elem_aligned {base stride : Word} {esz : Nat} (hesz : esz = 2 ∨ esz = 4) (hb : base.toNat % esz = 0)
    (hs : stride.toNat % esz = 0) (row col : Nat) : (elem base stride row col esz).toNat % esz = 0 := by
  have hdvd : esz ∣ 2 ^ 32 := by rcases hesz with rfl | rfl <;> decide
  rw [elem_toNat, Nat.mod_mod_of_dvd _ hdvd]
  have hrow : esz ∣ row * stride.toNat := Dvd.dvd.mul_left (Nat.dvd_of_mod_eq_zero hs) row
  exact Nat.mod_eq_zero_of_dvd
    (Nat.dvd_add (Nat.dvd_add (Nat.dvd_of_mod_eq_zero hb) hrow) (Nat.dvd_mul_left esz col))

theorem width_eq (s : State) : width s = s.dim.toNat % 65536 := by
  rw [width, BitVec.extractLsb'_toNat, Nat.shiftRight_zero]

theorem height_eq (s : State) : height s = s.dim.toNat / 65536 := by
  rw [height, BitVec.extractLsb'_toNat, Nat.shiftRight_eq_div_pow]
  omega

/-- Settles O20: the check stops at the first misaligned register of the list. -/
theorem firstMisalignedRegisterRaises : Obligations.FirstMisalignedRegisterRaises := by
  refine ⟨fun s i before after v n hwf ht harea hregs hbefore hv => ?_,
    fun base stride row col esz hesz hb hs => elem_aligned hesz hb hs row col, elem_toNat, rfl, rfl,
    fun s => ⟨width_eq s, height_eq s⟩⟩
  obtain ⟨body, hbody⟩ := exec_of_checkedRegs hwf ht harea (by simp [hregs])
  rw [hbody, hregs, alignPrologue_of_misaligned hbefore hv, afterPrologue_error]

end Sys2Proof.Machine
end

section
/-! PROOF. The segment loads: the bytes they fetch, the tables they commit, and how they stop (41_tables R160 to R168). -/

namespace Sys2Proof.Machine

open Sys2Proof.Claims

/-! ### Fetching listed bytes -/

theorem fetch_of_byteIs {s : State} {a : Word} {b : Byte} (h : ByteIs s a b) : fetch s a = .ok b := by
  obtain ⟨hnormal, rfl⟩ := h
  exact fetch_of_normal hnormal

theorem fetchBytes_of_bytesAre {s : State} {a : Word} {bs : List Byte} (h : BytesAre s a bs) :
    fetchBytes s bs.length a = .ok bs := by
  induction bs generalizing a with
  | nil => rfl
  | cons b bs ih =>
    obtain ⟨hb, hbs⟩ := h
    rw [List.length_cons, fetchBytes, fetch_of_byteIs hb]
    simp only [ih hbs]

theorem add_ofNat_succ (a : Word) (n : Nat) : a + BitVec.ofNat 32 (n + 1) = a + 1#32 + BitVec.ofNat 32 n := by
  rw [Nat.add_comm n 1, BitVec.ofNat_add, BitVec.add_assoc]

theorem add_zero_word (a : Word) : a + BitVec.ofNat 32 0 = a := BitVec.add_zero a

/-- A run of fetches stops where, after some bytes that answer, one does not. -/
theorem fetchBytes_stop {s : State} {a : Word} {n : Nat} {got : List Byte} {e : Stop} (h : BytesAre s a got)
    (hn : got.length < n) (he : fetch s (a + BitVec.ofNat 32 got.length) = .error e) : fetchBytes s n a = .error e := by
  induction got generalizing a n with
  | nil =>
    obtain ⟨n, rfl⟩ := Nat.exists_eq_add_one.2 hn
    rw [List.length_nil, add_zero_word] at he
    rw [fetchBytes, he]
  | cons b got ih =>
    obtain ⟨hb, hgot⟩ := h
    obtain ⟨n, rfl⟩ := Nat.exists_eq_add_one.2 (Nat.lt_of_le_of_lt (Nat.zero_le _) hn)
    rw [List.length_cons, add_ofNat_succ] at he
    rw [fetchBytes, fetch_of_byteIs hb]
    simp only [ih hgot (Nat.lt_of_succ_lt_succ hn) he]

/-- The two states answer every fetch alike. -/
structure SameBytes (s u : State) : Prop where
  cfg : u.cfg = s.cfg
  mem : u.mem = s.mem

theorem SameBytes.fetch {s u : State} (h : SameBytes s u) (a : Word) : fetch u a = fetch s a := by
  unfold Machine.fetch
  rw [h.cfg, h.mem]

theorem SameBytes.fetchBytes {s u : State} (h : SameBytes s u) (n : Nat) (a : Word) :
    fetchBytes u n a = fetchBytes s n a := by
  induction n generalizing a with
  | zero => rfl
  | succ n ih => rw [Machine.fetchBytes, Machine.fetchBytes, h.fetch, ih]

/-! ### The length field -/

/-- A segment whose length is below the least stops there; any other goes to its tables. -/
theorem loadSegment_of_length {s : State} {len : Nat} (h : SegmentLength s len) (least : Nat) (tables : Nat → LoadEnd) :
    loadSegment s least tables =
      if len < least then loadStop s 0 s.srcAddr (s.srcAddr + 2#32) (.error .segLength s.srcAddr)
      else tables (len - 2) := by
  obtain ⟨hlt, hhigh, hlow⟩ := h
  have hbytes : fetchBytes s 2 s.srcAddr = .ok [BitVec.ofNat 8 (len / 256), BitVec.ofNat 8 len] :=
    fetchBytes_of_bytesAre (bs := [_, _]) ⟨hhigh, hlow, trivial⟩
  have hlen : (BitVec.ofNat 8 (len / 256)).toNat * 256 + (BitVec.ofNat 8 len).toNat = len := by
    simp only [BitVec.toNat_ofNat]
    omega
  rw [loadSegment]
  simp only [hbytes, List.getD_cons_zero, List.getD_cons_succ, hlen]

theorem loadAnswer_loadStop (s : State) (n : Nat) (start upto : Word) (e : Stop) :
    loadAnswer (loadStop s n start upto e) = stopWith e s := rfl

/-! ### LOAD_DQT -/

theorem quantSlot_id (q : Fin 3) : quantSlot (BitVec.ofNat 8 q.val) = some q := by
  revert q
  decide

theorem quantSlot_of_illegal {b : Byte} (h : 2 < b.toNat) : quantSlot b = none := by
  revert b
  decide

theorem quantOf_toList (t : QuantTable) : quantOf t.toList = t := by
  ext k hk
  simp [quantOf]

section Round

variable {start p : Word} {fuel rem n : Nat} {s : State}

theorem quantTables_end (hrem : rem = 0) : quantTables start fuel rem p n s = ⟨s, n, (p - start).toNat, none⟩ := by
  cases fuel with
  | zero => rfl
  | succ fuel => rw [quantTables, if_pos hrem]

/-- One round of the loop with something left. -/
theorem quantTables_short (hfuel : rem ≤ fuel) (hpos : 0 < rem) (hrem : rem < 65) :
    quantTables start fuel rem p n s = loadStop s n start p (.error .segLength p) := by
  obtain ⟨fuel, rfl⟩ := Nat.exists_eq_add_one.2 (hpos.trans_le hfuel)
  rw [quantTables, if_neg hpos.ne', if_pos hrem]

theorem quantTables_idStop (hfuel : rem ≤ fuel) (hrem : 65 ≤ rem) {e : Stop} (hid : fetch s p = .error e) :
    quantTables start fuel rem p n s = loadStop s n start p e := by
  obtain ⟨fuel, rfl⟩ := Nat.exists_eq_add_one.2 (show 0 < fuel by omega)
  rw [quantTables, if_neg (by omega), if_neg (by omega), hid]

theorem quantTables_badId (hfuel : rem ≤ fuel) (hrem : 65 ≤ rem) {b : Byte} (hid : fetch s p = .ok b)
    (hb : quantSlot b = none) :
    quantTables start fuel rem p n s = loadStop s n start (p + 1#32) (.error .tableSpec p) := by
  obtain ⟨fuel, rfl⟩ := Nat.exists_eq_add_one.2 (show 0 < fuel by omega)
  rw [quantTables, if_neg (by omega), if_neg (by omega), hid]
  simp only [hb]

theorem quantTables_entryStop (hfuel : rem ≤ fuel) (hrem : 65 ≤ rem) {b : Byte} {q : Fin 3} {e : Stop}
    (hid : fetch s p = .ok b) (hb : quantSlot b = some q) (hentries : fetchBytes s 64 (p + 1#32) = .error e) :
    quantTables start fuel rem p n s = loadStop (s.dropQuant q) n start p e := by
  obtain ⟨fuel, rfl⟩ := Nat.exists_eq_add_one.2 (show 0 < fuel by omega)
  rw [quantTables, if_neg (by omega), if_neg (by omega), hid]
  simp only [hb, hentries]

theorem quantTables_commit (hfuel : rem ≤ fuel) (hrem : 65 ≤ rem) {b : Byte} {q : Fin 3} {bs : List Byte}
    (hid : fetch s p = .ok b) (hb : quantSlot b = some q) (hentries : fetchBytes s 64 (p + 1#32) = .ok bs) :
    quantTables start fuel rem p n s =
      quantTables start (fuel - 1) (rem - 65) (p + 65#32) (n + 1) (s.setQuant q (quantOf bs)) := by
  obtain ⟨fuel, rfl⟩ := Nat.exists_eq_add_one.2 (show 0 < fuel by omega)
  rw [quantTables, if_neg (by omega), if_neg (by omega), hid]
  simp only [hb, hentries, Nat.add_sub_cancel]

end Round

theorem commitQuant_cons (s : State) (q : Fin 3) (t : QuantTable) (ts : List (Fin 3 × QuantTable)) :
    commitQuant s ((q, t) :: ts) = commitQuant (s.setQuant q t) ts := rfl

/-- Committing tables changes the quantisation slots alone. -/
theorem commitQuant_frame (s : State) (ts : List (Fin 3 × QuantTable)) :
    ∃ qt qv, commitQuant s ts = { s with qt := qt, qv := qv } := by
  induction ts generalizing s with
  | nil => exact ⟨_, _, rfl⟩
  | cons x ts ih =>
    obtain ⟨qt, qv, h⟩ := ih (s.setQuant x.1 x.2)
    exact ⟨qt, qv, h⟩

theorem sameBytes_commitQuant (s : State) (ts : List (Fin 3 × QuantTable)) : SameBytes s (commitQuant s ts) := by
  obtain ⟨qt, qv, h⟩ := commitQuant_frame s ts
  rw [h]
  exact ⟨rfl, rfl⟩

/-- The loop commits whole tables one after the other. `u` is the state with the tables before `p` committed. -/
theorem quantTables_commits {s u : State} (hu : SameBytes s u) {ts : List (Fin 3 × QuantTable)} {start p : Word}
    {fuel rem : Nat} (n : Nat) (hseg : QuantSegment s p ts) (hfuel : rem ≤ fuel) (hrem : 65 * ts.length ≤ rem) :
    quantTables start fuel rem p n u =
      quantTables start (fuel - ts.length) (rem - 65 * ts.length) (p + BitVec.ofNat 32 (65 * ts.length))
        (n + ts.length) (commitQuant u ts) := by
  induction ts generalizing u p fuel rem n with
  | nil => simp [commitQuant]
  | cons x ts ih =>
    obtain ⟨q, t⟩ := x
    obtain ⟨hid, hentries, hrest⟩ := hseg
    rw [List.length_cons] at hrem
    have hid' : fetch u p = .ok (BitVec.ofNat 8 q.val) := (hu.fetch p).trans (fetch_of_byteIs hid)
    have hentries' : fetchBytes u 64 (p + 1#32) = .ok t.toList := by
      have hfetched := fetchBytes_of_bytesAre hentries
      rw [Vector.length_toList] at hfetched
      rw [hu.fetchBytes, hfetched]
    have haddr : p + 65#32 + BitVec.ofNat 32 (65 * ts.length) = p + BitVec.ofNat 32 (65 * (ts.length + 1)) := by
      rw [BitVec.add_assoc, Nat.mul_succ, Nat.add_comm, BitVec.ofNat_add]
    rw [quantTables_commit hfuel (by omega) hid' (quantSlot_id q) hentries', quantOf_toList,
      ih (u := u.setQuant q t) ⟨hu.cfg, hu.mem⟩ (n + 1) hrest (by omega) (by omega), haddr, commitQuant_cons,
      List.length_cons, Nat.sub_sub, Nat.sub_sub, Nat.add_assoc, Nat.add_comm 1, Nat.mul_succ, Nat.add_comm 65]

/-- LOAD_DQT once it has committed the whole tables listed: its loop goes on at the next id byte. -/
theorem loadDqtEnd_after {s : State} {len : Nat} {ts : List (Fin 3 × QuantTable)} (hlen : SegmentLength s len)
    (hleast : 67 ≤ len) (hts : 2 + 65 * ts.length ≤ len) (hseg : QuantSegment s (s.srcAddr + 2#32) ts) :
    loadDqtEnd s = quantTables s.srcAddr (len - 2 - ts.length) (len - 2 - 65 * ts.length)
      (s.srcAddr + BitVec.ofNat 32 (2 + 65 * ts.length)) ts.length (commitQuant s ts) := by
  have haddr : s.srcAddr + 2#32 + BitVec.ofNat 32 (65 * ts.length) =
      s.srcAddr + BitVec.ofNat 32 (2 + 65 * ts.length) := by
    rw [BitVec.add_assoc, BitVec.ofNat_add]
  rw [loadDqtEnd, loadSegment_of_length hlen, if_neg (by omega),
    quantTables_commits ⟨rfl, rfl⟩ 0 hseg le_rfl (by omega), haddr, Nat.zero_add]

/-- Settles O27: the loop commits all tables and ends with nothing left. -/
theorem loadDqtCommitsEveryTable : Obligations.LoadDqtCommitsEveryTable := by
  intro s ts hne hlen hseg
  have hpos := List.length_pos_of_ne_nil hne
  rw [exec, execLoadDqt, loadDqtEnd_after hlen (by omega) le_rfl hseg, quantTables_end (by omega)]
  rfl

theorem exec_loadDqt_tooShort {s : State} {len : Nat} (hlen : SegmentLength s len) (h : len < 67) :
    exec .loadDqt s = .next (s.raise .segLength s.srcAddr) := by
  rw [exec, execLoadDqt, loadDqtEnd, loadSegment_of_length hlen, if_pos h]
  rfl

/-- Settles O28: the length field, and the two data errors of a round after the tables committed. -/
theorem loadDqtSegmentErrors : Obligations.LoadDqtSegmentErrors := by
  intro s len hlen
  refine ⟨exec_loadDqt_tooShort hlen, fun ts b hleast hseg => ⟨fun hmore hshort => ?_, fun hmore hb hbad => ?_⟩⟩
  · rw [exec, execLoadDqt, loadDqtEnd_after hlen hleast (by omega) hseg,
      quantTables_short (by omega) (by omega) (by omega)]
    rfl
  · have hid := ((sameBytes_commitQuant s ts).fetch _).trans (fetch_of_byteIs hb)
    rw [exec, execLoadDqt, loadDqtEnd_after hlen hleast (by omega) hseg,
      quantTables_badId (by omega) (by omega) hid (quantSlot_of_illegal hbad)]
    rfl

/-- LOAD_DQT stops where, behind whole tables and an id byte, an entry does not answer: the slot is dropped. -/
theorem exec_loadDqt_entryStop {s : State} {len : Nat} {ts : List (Fin 3 × QuantTable)} {q : Fin 3} {got : List Byte}
    {e : Stop} (hlen : SegmentLength s len) (hmore : 67 + 65 * ts.length ≤ len)
    (hseg : QuantSegment s (s.srcAddr + 2#32) ts)
    (hid : ByteIs s (s.srcAddr + BitVec.ofNat 32 (2 + 65 * ts.length)) (BitVec.ofNat 8 q.val)) (hgot : got.length < 64)
    (hbytes : BytesAre s (s.srcAddr + BitVec.ofNat 32 (2 + 65 * ts.length) + 1#32) got)
    (he : fetch s (s.srcAddr + BitVec.ofNat 32 (2 + 65 * ts.length) + 1#32 + BitVec.ofNat 32 got.length) = .error e) :
    exec .loadDqt s = stopWith e ((commitQuant s ts).dropQuant q) := by
  have hsame := sameBytes_commitQuant s ts
  have hid' := (hsame.fetch _).trans (fetch_of_byteIs hid)
  have hentries := (hsame.fetchBytes 64 _).trans (fetchBytes_stop hbytes hgot he)
  rw [exec, execLoadDqt, loadDqtEnd_after hlen (by omega) (by omega) hseg,
    quantTables_entryStop (by omega) (by omega) hid' (quantSlot_id q) hentries]
  rfl

/-- Settles O29: the slot is dropped after the tables before it were committed. -/
theorem failedDqtLoadInvalidatesOnlyItsSlot : Obligations.FailedDqtLoadInvalidatesOnlyItsSlot := by
  intro s len ts q got hlen hmore hseg p bad hid hgot hbytes hbus
  refine ⟨((commitQuant s ts).dropQuant q).raise .bus bad,
    exec_loadDqt_entryStop hlen hmore hseg hid hgot hbytes (fetch_of_busError hbus), rfl, rfl, rfl,
    (sameBytes_commitQuant s ts).mem, vector_get_set_eq _ _ _, ?_, ?_, ?_,
    fun q' hne => ⟨vector_get_set_ne _ _ hne, vector_get_set_ne _ _ hne⟩⟩ <;>
  · obtain ⟨qt, qv, h⟩ := commitQuant_frame s ts
    rw [h]
    constructor <;> rfl

end Sys2Proof.Machine
end

section
/-! PROOF. LOAD_DHT: the tables it commits and how it stops (41_tables R165 to R168), and what a segment load depends
on. -/

namespace Sys2Proof.Machine

open Sys2Proof.Claims

/-! ### The rounds of LOAD_DHT -/

theorem huffSlot_huffId (h : Fin 4) : huffSlot (huffId h) = some h := by
  revert h
  decide

theorem huffSlot_of_illegal {b : Byte} (h : 1 < b.toNat / 16 ∨ 1 < b.toNat % 16) : huffSlot b = none := by
  revert b
  decide

theorem countsError_of_overfull {counts : List Byte} (rem : Nat)
    (h : 256 < totalOf counts ∨ (build counts).2 = false) : countsError rem counts = some .huffTable := by
  rw [countsError]
  split
  · rfl
  · rw [if_pos (h.resolve_left ‹_›)]

theorem countsError_of_legal {counts : List Byte} (rem : Nat) (h : ¬(256 < totalOf counts ∨ (build counts).2 = false)) :
    countsError rem counts = if rem < 17 + totalOf counts then some .segLength else none := by
  obtain ⟨htotal, hbuild⟩ := not_or.1 h
  rw [countsError, if_neg htotal, if_neg hbuild]

section Round

variable {start p : Word} {fuel rem n : Nat} {s : State}

theorem huffTables_end (hrem : rem = 0) : huffTables start fuel rem p n s = ⟨s, n, (p - start).toNat, none⟩ := by
  cases fuel with
  | zero => rfl
  | succ fuel => rw [huffTables, if_pos hrem]

theorem huffTables_short (hfuel : rem ≤ fuel) (hpos : 0 < rem) (hrem : rem < 17) :
    huffTables start fuel rem p n s = loadStop s n start p (.error .segLength p) := by
  obtain ⟨fuel, rfl⟩ := Nat.exists_eq_add_one.2 (hpos.trans_le hfuel)
  rw [huffTables, if_neg hpos.ne', if_pos hrem]

theorem huffTables_idStop (hfuel : rem ≤ fuel) (hrem : 17 ≤ rem) {e : Stop} (hid : fetch s p = .error e) :
    huffTables start fuel rem p n s = loadStop s n start p e := by
  obtain ⟨fuel, rfl⟩ := Nat.exists_eq_add_one.2 (show 0 < fuel by omega)
  rw [huffTables, if_neg (by omega), if_neg (by omega), hid]

theorem huffTables_badId (hfuel : rem ≤ fuel) (hrem : 17 ≤ rem) {b : Byte} (hid : fetch s p = .ok b)
    (hb : huffSlot b = none) :
    huffTables start fuel rem p n s = loadStop s n start (p + 1#32) (.error .tableSpec p) := by
  obtain ⟨fuel, rfl⟩ := Nat.exists_eq_add_one.2 (show 0 < fuel by omega)
  rw [huffTables, if_neg (by omega), if_neg (by omega), hid]
  simp only [hb]

theorem huffTables_countStop (hfuel : rem ≤ fuel) (hrem : 17 ≤ rem) {b : Byte} {h : Fin 4} {e : Stop}
    (hid : fetch s p = .ok b) (hb : huffSlot b = some h) (hcounts : fetchBytes s 16 (p + 1#32) = .error e) :
    huffTables start fuel rem p n s = loadStop (s.dropHuff h) n start p e := by
  obtain ⟨fuel, rfl⟩ := Nat.exists_eq_add_one.2 (show 0 < fuel by omega)
  rw [huffTables, if_neg (by omega), if_neg (by omega), hid]
  simp only [hb, hcounts]

theorem huffTables_badCounts (hfuel : rem ≤ fuel) (hrem : 17 ≤ rem) {b : Byte} {h : Fin 4} {counts : List Byte}
    {code : ErrCode} (hid : fetch s p = .ok b) (hb : huffSlot b = some h)
    (hcounts : fetchBytes s 16 (p + 1#32) = .ok counts) (hcode : countsError rem counts = some code) :
    huffTables start fuel rem p n s = loadStop (s.dropHuff h) n start (p + 17#32) (.error code p) := by
  obtain ⟨fuel, rfl⟩ := Nat.exists_eq_add_one.2 (show 0 < fuel by omega)
  rw [huffTables, if_neg (by omega), if_neg (by omega), hid]
  simp only [hb, hcounts, hcode]

theorem huffTables_symbolStop (hfuel : rem ≤ fuel) (hrem : 17 ≤ rem) {b : Byte} {h : Fin 4} {counts : List Byte}
    {e : Stop} (hid : fetch s p = .ok b) (hb : huffSlot b = some h)
    (hcounts : fetchBytes s 16 (p + 1#32) = .ok counts) (hcode : countsError rem counts = none)
    (hsymbols : fetchBytes s (totalOf counts) (p + 17#32) = .error e) :
    huffTables start fuel rem p n s = loadStop (s.dropHuff h) n start p e := by
  obtain ⟨fuel, rfl⟩ := Nat.exists_eq_add_one.2 (show 0 < fuel by omega)
  rw [huffTables, if_neg (by omega), if_neg (by omega), hid]
  simp only [hb, hcounts, hcode, hsymbols]

theorem huffTables_commit (hfuel : rem ≤ fuel) (hrem : 17 ≤ rem) {b : Byte} {h : Fin 4} {counts values : List Byte}
    (hid : fetch s p = .ok b) (hb : huffSlot b = some h) (hcounts : fetchBytes s 16 (p + 1#32) = .ok counts)
    (hcode : countsError rem counts = none) (hsymbols : fetchBytes s (totalOf counts) (p + 17#32) = .ok values) :
    huffTables start fuel rem p n s =
      huffTables start (fuel - 1) (rem - (17 + totalOf counts)) (p + 17#32 + BitVec.ofNat 32 (totalOf counts)) (n + 1)
        (s.setHuff h (huffOf (build counts).1 values)) := by
  obtain ⟨fuel, rfl⟩ := Nat.exists_eq_add_one.2 (show 0 < fuel by omega)
  rw [huffTables, if_neg (by omega), if_neg (by omega), hid]
  simp only [hb, hcounts, hcode, hsymbols, Nat.add_sub_cancel]

end Round

/-! ### Whole tables -/

theorem commitHuff_cons (s : State) (e : HuffEntry) (es : List HuffEntry) :
    commitHuff s (e :: es) = commitHuff (s.setHuff e.slot (huffOf (build e.counts).1 e.values)) es := rfl

/-- Committing tables changes the Huffman slots alone. -/
theorem commitHuff_frame (s : State) (es : List HuffEntry) : ∃ ht hv, commitHuff s es = { s with ht := ht, hv := hv } := by
  induction es generalizing s with
  | nil => exact ⟨_, _, rfl⟩
  | cons e es ih =>
    obtain ⟨ht, hv, h⟩ := ih (s.setHuff e.slot (huffOf (build e.counts).1 e.values))
    exact ⟨ht, hv, h⟩

theorem sameBytes_commitHuff (s : State) (es : List HuffEntry) : SameBytes s (commitHuff s es) := by
  obtain ⟨ht, hv, h⟩ := commitHuff_frame s es
  rw [h]
  exact ⟨rfl, rfl⟩

theorem huffSize_cons (e : HuffEntry) (es : List HuffEntry) : huffSize (e :: es) = e.size + huffSize es := rfl

theorem length_le_huffSize (es : List HuffEntry) : es.length ≤ huffSize es := by
  induction es with
  | nil => exact le_rfl
  | cons e es ih =>
    rw [huffSize_cons, List.length_cons, HuffEntry.size]
    omega

/-- The loop commits whole tables one after the other. `u` is the state with the tables before `p` committed. -/
theorem huffTables_commits {s u : State} (hu : SameBytes s u) {es : List HuffEntry} {start p : Word} {fuel rem : Nat}
    (n : Nat) (hseg : HuffSegment s p es) (hfuel : rem ≤ fuel) (hrem : huffSize es ≤ rem) :
    huffTables start fuel rem p n u =
      huffTables start (fuel - es.length) (rem - huffSize es) (p + BitVec.ofNat 32 (huffSize es))
        (n + es.length) (commitHuff u es) := by
  induction es generalizing u p fuel rem n with
  | nil => simp [commitHuff, huffSize]
  | cons e es ih =>
    obtain ⟨hid, hcount, hvalue, htotal, hbuild, hcounts, hvalues, hrest⟩ := hseg
    rw [huffSize_cons, HuffEntry.size] at hrem
    have hid' : fetch u p = .ok (huffId e.slot) := (hu.fetch p).trans (fetch_of_byteIs hid)
    have hcounts' : fetchBytes u 16 (p + 1#32) = .ok e.counts := by
      rw [hu.fetchBytes, ← hcount, fetchBytes_of_bytesAre hcounts]
    have hvalues' : fetchBytes u (totalOf e.counts) (p + 17#32) = .ok e.values := by
      rw [hu.fetchBytes, ← hvalue, fetchBytes_of_bytesAre hvalues]
    have hcode : countsError rem e.counts = none := by
      rw [countsError_of_legal rem (by simp [hbuild, Nat.not_lt.2 htotal]), if_neg (by omega)]
    have haddr : p + 17#32 + BitVec.ofNat 32 (totalOf e.counts) = p + BitVec.ofNat 32 e.size := by
      rw [BitVec.add_assoc, HuffEntry.size, BitVec.ofNat_add]
    have hnext : p + BitVec.ofNat 32 e.size + BitVec.ofNat 32 (huffSize es) =
        p + BitVec.ofNat 32 (huffSize (e :: es)) := by
      rw [BitVec.add_assoc, huffSize_cons, BitVec.ofNat_add]
    rw [huffTables_commit hfuel (by omega) hid' (huffSlot_huffId e.slot) hcounts' hcode hvalues', haddr,
      ih (u := u.setHuff e.slot (huffOf (build e.counts).1 e.values)) ⟨hu.cfg, hu.mem⟩ (n + 1) hrest (by omega)
        (by omega), hnext, commitHuff_cons, List.length_cons, huffSize_cons, HuffEntry.size]
    congr 1 <;> omega

/-- LOAD_DHT once it has committed the whole tables listed: its loop goes on at the next id byte. -/
theorem loadDhtEnd_after {s : State} {len : Nat} {es : List HuffEntry} (hlen : SegmentLength s len)
    (hleast : 19 ≤ len) (hes : 2 + huffSize es ≤ len) (hseg : HuffSegment s (s.srcAddr + 2#32) es) :
    loadDhtEnd s = huffTables s.srcAddr (len - 2 - es.length) (len - 2 - huffSize es)
      (s.srcAddr + BitVec.ofNat 32 (2 + huffSize es)) es.length (commitHuff s es) := by
  have haddr : s.srcAddr + 2#32 + BitVec.ofNat 32 (huffSize es) = s.srcAddr + BitVec.ofNat 32 (2 + huffSize es) := by
    rw [BitVec.add_assoc, BitVec.ofNat_add]
  rw [loadDhtEnd, loadSegment_of_length hlen, if_neg (by omega),
    huffTables_commits ⟨rfl, rfl⟩ 0 hseg le_rfl (by omega), haddr, Nat.zero_add]

/-- Settles O30: the loop commits all tables and ends with nothing left. -/
theorem loadDhtCommitsEveryTable : Obligations.LoadDhtCommitsEveryTable := by
  intro s es hne hlen hseg
  have hleast : 17 ≤ huffSize es := by
    obtain ⟨e, es, rfl⟩ := List.exists_cons_of_ne_nil hne
    rw [huffSize_cons, HuffEntry.size]
    omega
  rw [exec, execLoadDht, loadDhtEnd_after hlen (by omega) le_rfl hseg, huffTables_end (by omega)]
  rfl

theorem exec_loadDht_tooShort {s : State} {len : Nat} (hlen : SegmentLength s len) (h : len < 19) :
    exec .loadDht s = .next (s.raise .segLength s.srcAddr) := by
  rw [exec, execLoadDht, loadDhtEnd, loadSegment_of_length hlen, if_pos h]
  rfl

/-- Settles O31: the length field, and the two data errors of a round before it touches a slot. -/
theorem loadDhtSegmentErrors : Obligations.LoadDhtSegmentErrors := by
  intro s len hlen
  refine ⟨exec_loadDht_tooShort hlen, fun es b hleast hseg => ⟨fun hmore hshort => ?_, fun hmore hb hbad => ?_⟩⟩ <;>
    have hlength := length_le_huffSize es
  · rw [exec, execLoadDht, loadDhtEnd_after hlen hleast (by omega) hseg,
      huffTables_short (by omega) (by omega) (by omega)]
    rfl
  · have hid := ((sameBytes_commitHuff s es).fetch _).trans (fetch_of_byteIs hb)
    rw [exec, execLoadDht, loadDhtEnd_after hlen hleast (by omega) hseg,
      huffTables_badId (by omega) (by omega) hid (huffSlot_of_illegal hbad)]
    rfl

/-! ### Stops while a slot is loaded -/

section Loading

variable {s : State} {len : Nat} {es : List HuffEntry} {h : Fin 4} {counts : List Byte} (hlen : SegmentLength s len)
  (hmore : 19 + huffSize es ≤ len) (hseg : HuffSegment s (s.srcAddr + 2#32) es)
  (hid : ByteIs s (s.srcAddr + BitVec.ofNat 32 (2 + huffSize es)) (huffId h))
  (hcounts : BytesAre s (s.srcAddr + BitVec.ofNat 32 (2 + huffSize es) + 1#32) counts)
include hlen hmore hseg hid hcounts

theorem exec_loadDht_countStop {e : Stop} (hlt : counts.length < 16)
    (he : fetch s (s.srcAddr + BitVec.ofNat 32 (2 + huffSize es) + 1#32 + BitVec.ofNat 32 counts.length) = .error e) :
    exec .loadDht s = stopWith e ((commitHuff s es).dropHuff h) := by
  have hlength := length_le_huffSize es
  have hsame := sameBytes_commitHuff s es
  have hid' := (hsame.fetch _).trans (fetch_of_byteIs hid)
  have hcounts' := (hsame.fetchBytes 16 _).trans (fetchBytes_stop hcounts hlt he)
  rw [exec, execLoadDht, loadDhtEnd_after hlen (by omega) (by omega) hseg,
    huffTables_countStop (by omega) (by omega) hid' (huffSlot_huffId h) hcounts']
  rfl

theorem exec_loadDht_badCounts {code : ErrCode} (h16 : counts.length = 16)
    (hcode : countsError (len - 2 - huffSize es) counts = some code) :
    exec .loadDht s =
      .next (((commitHuff s es).dropHuff h).raise code (s.srcAddr + BitVec.ofNat 32 (2 + huffSize es))) := by
  have hlength := length_le_huffSize es
  have hsame := sameBytes_commitHuff s es
  have hid' := (hsame.fetch _).trans (fetch_of_byteIs hid)
  have hcounts' := (hsame.fetchBytes 16 _).trans (h16 ▸ fetchBytes_of_bytesAre hcounts)
  rw [exec, execLoadDht, loadDhtEnd_after hlen (by omega) (by omega) hseg,
    huffTables_badCounts (by omega) (by omega) hid' (huffSlot_huffId h) hcounts' hcode]
  rfl

theorem exec_loadDht_symbolStop {got : List Byte} {e : Stop} (h16 : counts.length = 16)
    (hcode : countsError (len - 2 - huffSize es) counts = none) (hlt : got.length < totalOf counts)
    (hgot : BytesAre s (s.srcAddr + BitVec.ofNat 32 (2 + huffSize es) + 17#32) got)
    (he : fetch s (s.srcAddr + BitVec.ofNat 32 (2 + huffSize es) + 17#32 + BitVec.ofNat 32 got.length) = .error e) :
    exec .loadDht s = stopWith e ((commitHuff s es).dropHuff h) := by
  have hlength := length_le_huffSize es
  have hsame := sameBytes_commitHuff s es
  have hid' := (hsame.fetch _).trans (fetch_of_byteIs hid)
  have hcounts' := (hsame.fetchBytes 16 _).trans (h16 ▸ fetchBytes_of_bytesAre hcounts)
  have hsymbols := (hsame.fetchBytes _ _).trans (fetchBytes_stop hgot hlt he)
  rw [exec, execLoadDht, loadDhtEnd_after hlen (by omega) (by omega) hseg,
    huffTables_symbolStop (by omega) (by omega) hid' (huffSlot_huffId h) hcounts' hcode hsymbols]
  rfl

end Loading

/-- A slot dropped behind committed tables: it is invalid, and nothing else differs from the tables committed. -/
theorem commitHuff_dropHuff_raise (s : State) (es : List HuffEntry) (h : Fin 4) (code : ErrCode) (a : Word) :
    let t := ((commitHuff s es).dropHuff h).raise code a
    t.err = true ∧ t.errcode = errBits code ∧ t.errAddr = a ∧ t.mem = s.mem ∧ t.hv.get h = false ∧ SameParameters s t ∧
      SameEntropy s t ∧ SameQuant s t ∧ ∀ h' : Fin 4, h' ≠ h →
        t.hv.get h' = (commitHuff s es).hv.get h' ∧ t.ht.get h' = (commitHuff s es).ht.get h' := by
  refine ⟨rfl, rfl, rfl, (sameBytes_commitHuff s es).mem, vector_get_set_eq _ _ _, ?_, ?_, ?_,
    fun h' hne => ⟨vector_get_set_ne _ _ hne, vector_get_set_ne _ _ hne⟩⟩ <;>
  · obtain ⟨ht, hv, heq⟩ := commitHuff_frame s es
    rw [heq]
    constructor <;> rfl

/-- Settles O32: each stop of a round that has named its slot drops the slot. -/
theorem failedDhtLoadInvalidatesOnlyItsSlot : Obligations.FailedDhtLoadInvalidatesOnlyItsSlot := by
  intro s len es h counts got hlen hmore hseg p badCount bad failed hid hcounts
  have hfailed := fun code addr => commitHuff_dropHuff_raise s es h code addr
  refine ⟨fun hlt hbus => ⟨_, ?_, hfailed .bus badCount⟩, fun h16 => ⟨fun hfull => ⟨_, ?_, hfailed .huffTable p⟩,
    fun hfull hfew => ⟨_, ?_, hfailed .segLength p⟩, fun hfull henough hlt hgot hbus => ⟨_, ?_, hfailed .bus bad⟩⟩⟩
  · exact exec_loadDht_countStop hlen hmore hseg hid hcounts hlt (fetch_of_busError hbus)
  · exact exec_loadDht_badCounts hlen hmore hseg hid hcounts h16 (countsError_of_overfull _ hfull)
  · refine exec_loadDht_badCounts hlen hmore hseg hid hcounts h16 ?_
    rw [countsError_of_legal _ hfull, if_pos (by omega)]
  · refine exec_loadDht_symbolStop hlen hmore hseg hid hcounts h16 ?_ hlt hgot (fetch_of_busError hbus)
    rw [countsError_of_legal _ hfull, if_neg (by omega)]

/-! ### What a segment load depends on -/

/-- The state with another memory. -/
def LoadEnd.withMem (e : LoadEnd) (m : Memory) : LoadEnd := { e with state := e.state.setMem m }

/-- Memory `m` holds the bytes of `s` at the `n` addresses from `a`. -/
def AgreesOn (s : State) (m : Memory) (a : Word) (n : Nat) : Prop :=
  ∀ k < n, Memory.readByte m (a + BitVec.ofNat 32 k).toNat = Memory.readByte s.mem (a + BitVec.ofNat 32 k).toNat

theorem AgreesOn.drop {s : State} {m : Memory} {a : Word} {n : Nat} (h : AgreesOn s m a n) (j : Nat) :
    AgreesOn s m (a + BitVec.ofNat 32 j) (n - j) := by
  intro k hk
  rw [BitVec.add_assoc, ← BitVec.ofNat_add]
  exact h (j + k) (by omega)

theorem AgreesOn.fetch {s : State} {m : Memory} {a : Word} {n : Nat} (h : AgreesOn s m a n) (hn : 0 < n) :
    fetch (s.setMem m) a = fetch s a := by
  have hbyte := h 0 hn
  rw [add_zero_word] at hbyte
  unfold Machine.fetch
  rw [State.setMem_mem, State.setMem_cfg, hbyte]

theorem AgreesOn.fetchBytes {s : State} {m : Memory} {a : Word} {n : Nat} (h : AgreesOn s m a n) {k : Nat} (hk : k ≤ n) :
    fetchBytes (s.setMem m) k a = fetchBytes s k a := by
  induction k generalizing a n with
  | zero => rfl
  | succ k ih => rw [Machine.fetchBytes, Machine.fetchBytes, h.fetch (by omega), ih (h.drop 1) (by omega)]

theorem quantTables_withMem {s : State} {m : Memory} {start p : Word} {fuel rem n : Nat} (h : AgreesOn s m p rem) :
    quantTables start fuel rem p n (s.setMem m) = (quantTables start fuel rem p n s).withMem m := by
  induction fuel generalizing rem p n s with
  | zero => rfl
  | succ fuel ih =>
    rw [quantTables, quantTables]
    split
    · rfl
    split
    · rfl
    rw [h.fetch (by omega), (h.drop 1).fetchBytes (k := 64) (by omega)]
    split
    · rfl
    split
    · rfl
    split
    · rfl
    · exact ih (s := s.setQuant _ _) (h.drop 65)

theorem huffTables_withMem {s : State} {m : Memory} {start p : Word} {fuel rem n : Nat} (h : AgreesOn s m p rem) :
    huffTables start fuel rem p n (s.setMem m) = (huffTables start fuel rem p n s).withMem m := by
  induction fuel generalizing rem p n s with
  | zero => rfl
  | succ fuel ih =>
    rw [huffTables, huffTables]
    split
    · rfl
    split
    · rfl
    rw [h.fetch (by omega), (h.drop 1).fetchBytes (k := 16) (by omega)]
    split
    · rfl
    split
    · rfl
    split
    · rfl
    split
    · rfl
    rename_i counts _ _ hcode
    obtain ⟨_, _, htotal⟩ := countsError_eq_none hcode
    rw [(h.drop 17).fetchBytes (k := totalOf counts) (by omega)]
    split
    · rfl
    · have hrest := (h.drop 17).drop (totalOf counts)
      rw [Nat.sub_sub] at hrest
      exact ih (s := s.setHuff _ _) hrest

/-- A segment's length field is read alike where its two bytes are the same. -/
theorem segmentLength_setMem {s : State} {m : Memory} {len : Nat} (hlen : SegmentLength s len)
    (h : AgreesOn s m s.srcAddr 2) : SegmentLength (s.setMem m) len := by
  obtain ⟨hlt, ⟨hnormal, hbyte⟩, hnormal', hbyte'⟩ := hlen
  have hfirst := h 0 (by decide)
  rw [add_zero_word] at hfirst
  exact ⟨hlt, ⟨hnormal, hfirst.trans hbyte⟩, hnormal', (h 1 (by decide)).trans hbyte'⟩

theorem loadSegment_withMem {s : State} {m : Memory} {len least : Nat} {tables tables' : Nat → LoadEnd}
    (hlen : SegmentLength s len) (h : AgreesOn s m s.srcAddr (max len 2))
    (htables : tables' (len - 2) = (tables (len - 2)).withMem m) :
    loadSegment (s.setMem m) least tables' = (loadSegment s least tables).withMem m := by
  have hlen' := segmentLength_setMem hlen fun k hk => h k (by omega)
  rw [loadSegment_of_length hlen, loadSegment_of_length hlen']
  split
  · rfl
  · exact htables

theorem loadAnswer_withMem {e : LoadEnd} {t : State} (h : loadAnswer e = .next t) (m : Memory) :
    loadAnswer (e.withMem m) = .next (t.setMem m) := by
  obtain ⟨hstop, rfl⟩ | ⟨code, a, hstop, rfl⟩ := loadAnswer_next h <;>
  · rw [loadAnswer, LoadEnd.withMem]
    simp only [hstop]
    rfl

/-- Settles O34: each fetch of a load lies inside its segment, so it answers alike. -/
theorem segmentLoadsDependOnlyOnTheirSegment : Obligations.SegmentLoadsDependOnlyOnTheirSegment := by
  intro s m len i hi hlen hagree t ht
  have hrest : AgreesOn s m (s.srcAddr + 2#32) (len - 2) := fun k hk =>
    AgreesOn.drop (n := max len 2) hagree 2 k (by omega)
  rcases hi with rfl | rfl
  · obtain ⟨qt, qv, d, hend⟩ := execLoadDqt_next ht
    refine ⟨by obtain ⟨v, rfl⟩ | ⟨code, a, rfl⟩ := hend <;> rfl, ?_⟩
    have hload : loadDqtEnd (s.setMem m) = (loadDqtEnd s).withMem m :=
      loadSegment_withMem hlen hagree (quantTables_withMem hrest)
    exact (congrArg loadAnswer hload).trans (loadAnswer_withMem ht m)
  · obtain ⟨htab, hv, d, hend⟩ := execLoadDht_next ht
    refine ⟨by obtain ⟨v, rfl⟩ | ⟨code, a, rfl⟩ := hend <;> rfl, ?_⟩
    have hload : loadDhtEnd (s.setMem m) = (loadDhtEnd s).withMem m :=
      loadSegment_withMem hlen hagree (huffTables_withMem hrest)
    exact (congrArg loadAnswer hload).trans (loadAnswer_withMem ht m)

end Sys2Proof.Machine
end

section
/-! PROOF. The three kinds of command words (30_encoding R123). -/

namespace Sys2Proof.Machine

open Sys2Proof.Claims

/-! ### The three kinds of command words -/

/-- A state in which a word is pending, with no table valid, no area and SRC_ADDR odd. -/
def probeState (w : Word) : State := { State.reset with cmd := w, srcAddr := 1#32 }

/-- The command ended with neither ILLEGAL nor SAMPLING. -/
def EndsOtherwise (t : State) : Prop := t.errcode ≠ errBits .illegal ∧ t.errcode ≠ errBits .sampling

theorem endsOtherwise_complete {s : State} (h : s.errcode = 0#4) (v : Word) : EndsOtherwise (s.complete v) := by
  rw [EndsOtherwise, State.complete_errcode, h]
  decide

theorem endsOtherwise_raise {code : ErrCode} (h : code ≠ .illegal ∧ code ≠ .sampling) (s : State) (a : Word) :
    EndsOtherwise (s.raise code a) := by
  have hbits : ∀ c d : ErrCode, c ≠ d → errBits c ≠ errBits d := by
    intro c d
    cases c <;> cases d <;> decide
  exact ⟨hbits _ _ h.1, hbits _ _ h.2⟩

/-- The length field of the probe state's segment, which nothing has written, is 0. -/
theorem segmentLength_probeState (w : Word) : SegmentLength (probeState w) 0 := by
  have hanswer : respond State.reset.cfg 1#32 1 = .normal ∧ respond State.reset.cfg 2#32 1 = .normal := by decide
  exact ⟨by decide, ⟨hanswer.1, rfl⟩, hanswer.2, rfl⟩

/-- In the probe state a command with legal fields ends with another error than ILLEGAL and SAMPLING, or with none. -/
theorem exec_probeState (w : Word) {i : Instr} (h : WellFormed i = true) :
    ∃ t, exec i (probeState w) = .next t ∧ EndsOtherwise t := by
  have hmissing : ¬TablesValid (probeState w) i →
      ∃ t, exec i (probeState w) = .next t ∧ EndsOtherwise t := fun hvalid =>
    ⟨_, missingTableRaises.1 _ _ h hvalid, endsOtherwise_raise (by decide) _ _⟩
  cases i with
  | nop => exact ⟨_, rfl, endsOtherwise_complete rfl _⟩
  | resetDc => exact ⟨_, rfl, endsOtherwise_complete (s := (probeState w).clearPred) rfl _⟩
  | restart => exact ⟨_, execRestart_trunc (Nat.two_pos), endsOtherwise_raise (by decide) _ _⟩
  | loadDqt =>
    exact ⟨_, exec_loadDqt_tooShort (segmentLength_probeState w) (by decide), endsOtherwise_raise (by decide) _ _⟩
  | loadDht =>
    exact ⟨_, exec_loadDht_tooShort (segmentLength_probeState w) (by decide), endsOtherwise_raise (by decide) _ _⟩
  | decodeBlock comp d a =>
    have hv : ∀ b, State.reset.hv.get (dcSlot b) ≠ true := by decide
    exact hmissing fun hvalid => hv d hvalid.1
  | idct q lshift raw =>
    by_cases hvalid : TablesValid (probeState w) (.idct q lshift raw)
    · have hodd := firstMisalignedRegisterRaises.1 (probeState w) (.idct q lshift raw) [] _ 1#32 2 h hvalid
        (fun hrect => absurd rfl hrect) rfl (List.forall_mem_nil _) (by decide)
      exact ⟨_, hodd, endsOtherwise_raise (by decide) _ _⟩
    · exact hmissing hvalid
  | upsample | ycc2rgb | cvt565To8888 | cvt8888To565 | blend =>
    exact ⟨_, zeroAreaCompletesWithoutAccess (probeState w) _ h nofun (.inl rfl),
      endsOtherwise_complete (s := probeState w) rfl 0#32⟩

/-- A command with an illegal field raises ILLEGAL in every state, or is an UPSAMPLE that raises SAMPLING in every
state. -/
theorem exec_of_not_wellFormed {i : Instr} (h : WellFormed i = false) :
    (∀ s, exec i s = .next (s.raise .illegal 0#32)) ∨
      (∃ hr vr, i = .upsample hr vr) ∧ ∀ s, exec i s = .next (s.raise .sampling 0#32) := by
  have hthree : ∀ f : BitVec 2, legalIndex f = false → f = 3#2 := by decide
  have hratio : ∀ f : BitVec 2, legalRatio f = false → f = 3#2 ∨ f = 0#2 := by decide
  cases i with
  | nop | resetDc | restart | loadDqt | loadDht | ycc2rgb | cvt565To8888 | cvt8888To565 | blend => cases h
  | decodeBlock comp d a =>
    rw [hthree comp h]
    exact .inl fun _ => rfl
  | idct q l r =>
    rw [hthree q h]
    exact .inl fun _ => rfl
  | upsample hr vr =>
    by_cases hany : hr = 3#2 ∨ vr = 3#2
    · refine .inl fun s => ?_
      obtain ⟨-, -, hup, -⟩ := illegalFieldValuesRaise s false false false false hr vr
      exact hup hany
    · obtain ⟨hhr, hvr⟩ := not_or.1 hany
      have hzero : hr = 0#2 ∨ vr = 0#2 := by
        rcases Bool.and_eq_false_iff.1 h with hf | hf
        · exact .inl ((hratio hr hf).resolve_left hhr)
        · exact .inr ((hratio vr hf).resolve_left hvr)
      refine .inr ⟨⟨hr, vr, rfl⟩, fun s => ?_⟩
      obtain ⟨-, -, -, hup⟩ := illegalFieldValuesRaise s false false false false hr vr
      exact hup hhr hvr hzero

/-- Settles O6: a word that does not decode is ILLEGAL; a command with legal fields ends otherwise in the probe state. -/
theorem everyWordIsLegalOrIllegalOrSampling : Obligations.EveryWordIsLegalOrIllegalOrSampling := by
  intro w legal illegal sampling
  have hcodes : ∀ s : State, (Host.Outcome.next (s.raise .illegal 0#32) : Answer) ≠ .next (s.raise .sampling 0#32) := by
    intro s h
    cases congrArg State.errcode (Host.Outcome.next.inj h)
  have hboth : ¬(illegal ∧ sampling) := fun ⟨hi, _, hs⟩ =>
    hcodes (probeState w) ((hi (probeState w) rfl).symm.trans (hs (probeState w) rfl))
  cases hdecode : decode w with
  | error e =>
    have hnone : ∀ i, decode w ≠ .ok i := by simp [hdecode]
    refine .inr (.inl ⟨fun ⟨i, hi, _⟩ => hnone i hi, fun s hs => ?_, fun ⟨⟨hr, vr, hi⟩, _⟩ => hnone _ hi⟩)
    exact execute_of_decode_ne_ok (by rwa [hs])
  | ok i =>
    have hexec : ∀ s : State, s.cmd = w → execute s = exec i s := fun s hs => execute_of_decode_ok (hs ▸ hdecode)
    cases hwf : WellFormed i with
    | true =>
      obtain ⟨t, ht, hillegal, hsampling⟩ := exec_probeState w hwf
      rw [← hexec (probeState w) rfl] at ht
      refine .inl ⟨⟨i, hdecode, hwf⟩, fun hi => hillegal ?_, fun ⟨_, hs⟩ => hsampling ?_⟩
      · rw [Host.Outcome.next.inj (ht.symm.trans (hi (probeState w) rfl)), State.raise_errcode]
      · rw [Host.Outcome.next.inj (ht.symm.trans (hs (probeState w) rfl)), State.raise_errcode]
    | false =>
      have hlegal : ¬legal := by
        rintro ⟨i', hi', hwf'⟩
        cases hdecode.symm.trans hi'
        simp [hwf] at hwf'
      rcases exec_of_not_wellFormed hwf with hi | ⟨⟨hr, vr, rfl⟩, hs⟩
      · have hi' : illegal := fun s hs => (hexec s hs).trans (hi s)
        exact .inr (.inl ⟨hlegal, hi', fun hs => hboth ⟨hi', hs⟩⟩)
      · have hs' : sampling := ⟨⟨hr, vr, hdecode⟩, fun s hcmd => (hexec s hcmd).trans (hs s)⟩
        exact .inr (.inr ⟨hlegal, fun hi => hboth ⟨hi, hs'⟩, hs'⟩)

end Sys2Proof.Machine
end

section
/-! PROOF. Receive as one number, most significant bit first, and HuffDecode along a code that is known (42_entropy R192,
R193, R195). -/

namespace Sys2Proof.Machine

open Sys2Proof.Claims

/-! ### NextBit -/

theorem nextBit_of_buffered {s : State} {r : Reader} (h : 0 < r.cnt) :
    nextBit s r = .got (r.buf.getLsbD (r.cnt - 1)) { r with cnt := r.cnt - 1 } := if_neg h.ne'

theorem nextBit_of_empty {s : State} {r : Reader} (h : r.cnt = 0) :
    nextBit s r = (fetchByte s r).bind fun b r1 => takeBit { r1 with buf := b, cnt := 8 } := if_pos h

/-! ### Receive in parts -/

/-- Receiving more bits goes on from the number the first ones gave. -/
theorem receiveFrom_add (s : State) (n m v : Nat) (r : Reader) :
    receiveFrom s (n + m) v r = (receiveFrom s n v r).bind fun w r => receiveFrom s m w r := by
  induction n generalizing v r with
  | zero => rw [Nat.zero_add]; rfl
  | succ n ih =>
    rw [Nat.succ_add, receiveFrom, receiveFrom]
    cases nextBit s r with
    | got b r1 => exact ih _ _
    | stop e seen => rfl

/-- The bits received stand below those that came before. -/
theorem receiveFrom_eq_bind (s : State) (n v : Nat) (r : Reader) :
    receiveFrom s n v r = (receive s n r).bind fun w r => .got (v * 2 ^ n + w) r := by
  induction n generalizing v r with
  | zero => simp [receive, receiveFrom]
  | succ n ih =>
    rw [receive, receiveFrom, receiveFrom]
    cases nextBit s r with
    | got b r1 =>
      simp only [Reading.got_bind]
      rw [ih, ih (2 * 0 + b.toNat)]
      cases receive s n r1 with
      | got w r2 =>
        simp only [Reading.got_bind]
        congr 1
        ring
      | stop e seen => rfl
    | stop e seen => rfl

theorem receive_add (s : State) (n m : Nat) (r : Reader) :
    receive s (n + m) r = (receive s n r).bind fun v r => (receive s m r).bind fun w r => .got (v * 2 ^ m + w) r := by
  rw [receive, receiveFrom_add]
  simp only [receiveFrom_eq_bind s m]
  rfl

theorem receive_lt {s : State} {n v : Nat} {r r' : Reader} (h : receive s n r = .got v r') : v < 2 ^ n := by
  induction n generalizing v r' with
  | zero => cases h; exact Nat.one_pos
  | succ n ih =>
    rw [receive_add] at h
    obtain ⟨w, r1, hw, h⟩ := Reading.bind_got h
    obtain ⟨b, r2, hb, h⟩ := Reading.bind_got h
    obtain ⟨bit, r3, hbit, hb⟩ := Reading.bind_got hb
    cases hb
    cases h
    have hbit := bit.toNat_le
    have hlow := ih hw
    rw [pow_succ]
    omega

/-- A number received keeps the bits before it at its top. -/
theorem receiveFrom_div {s : State} {n v c : Nat} {r r' : Reader} (h : receiveFrom s n v r = .got c r') :
    c / 2 ^ n = v := by
  rw [receiveFrom_eq_bind] at h
  obtain ⟨w, r1, hw, h⟩ := Reading.bind_got h
  cases h
  rw [Nat.mul_comm, Nat.mul_add_div (Nat.two_pow_pos n), Nat.div_eq_of_lt (receive_lt hw), Nat.add_zero]

/-! ### Receive from the buffer -/

/-- The lowest `n + 1` of the bits below place `c` are the one at the top of them and the `n` below it. -/
theorem bits_below_succ (x : Nat) {c n : Nat} (h : n + 1 ≤ c) :
    x / 2 ^ (c - (n + 1)) % 2 ^ (n + 1) = (x.testBit (c - 1)).toNat * 2 ^ n + x / 2 ^ (c - 1 - n) % 2 ^ n := by
  have hplace : c - (n + 1) = c - 1 - n := by omega
  have htop : x / 2 ^ (c - 1 - n) / 2 ^ n = x / 2 ^ (c - 1) := by
    rw [Nat.div_div_eq_div_mul, ← pow_add]
    congr 2
    omega
  rw [hplace, Nat.mod_pow_succ, htop, Nat.toNat_testBit]
  ring

theorem receive_of_buffered {s : State} {r : Reader} {n : Nat} (hn : n ≤ r.cnt) :
    receive s n r = .got (r.buf.toNat / 2 ^ (r.cnt - n) % 2 ^ n) { r with cnt := r.cnt - n } := by
  induction n generalizing r with
  | zero => simp [receive, receiveFrom, Nat.mod_one]
  | succ n ih =>
    rw [receive, receiveFrom, nextBit_of_buffered (by omega), Reading.got_bind, receiveFrom_eq_bind,
      ih (r := { r with cnt := r.cnt - 1 }) (by simp only; omega), Reading.got_bind, Nat.mul_zero, Nat.zero_add,
      bits_below_succ _ hn, Nat.sub_sub r.cnt 1 n, Nat.add_comm 1 n]
    rfl

/-- With an empty buffer, bits are received as from the byte fetched. -/
theorem receive_of_empty {s : State} {r r1 : Reader} {b : Byte} {n : Nat} (hcnt : r.cnt = 0)
    (hb : fetchByte s r = .got b r1) (hn : 0 < n) : receive s n r = receive s n { r1 with buf := b, cnt := 8 } := by
  obtain ⟨n, rfl⟩ := Nat.exists_eq_add_one.2 hn
  rw [receive, receive, receiveFrom, receiveFrom, nextBit_of_empty hcnt, hb]
  rfl

/-- Settles O37: Receive is additive in its bit count, so it is the bits of the buffer and then those of the next byte. -/
theorem receiveTakesBufferedBitsMsbFirst : Obligations.ReceiveTakesBufferedBitsMsbFirst := by
  refine ⟨fun s r n hn _ => receive_of_buffered hn, fun s r h _ => nextBit_of_buffered h, fun s r hcnt => ⟨?_, ?_⟩,
    fun s r r1 b n hcnt hlt hle hb => ?_,
    fun s r n m => receive_add s n m r⟩
  · intro b r1 hb
    rw [nextBit_of_empty hcnt, hb]
    rfl
  · intro e seen hstop
    rw [nextBit_of_empty hcnt, hstop, Reading.stop_bind]
  · intro m
    have hn : n = r.cnt + m := by omega
    have hbyte : b.toNat / 2 ^ (8 - m) < 2 ^ m := by
      have hpow : 2 ^ (8 - m) * 2 ^ m = 2 ^ 8 := by rw [← pow_add]; congr 1; omega
      exact Nat.div_lt_of_lt_mul (hpow ▸ b.isLt)
    rw [hn, receive_add, receive_of_buffered le_rfl, Nat.sub_self, pow_zero, Nat.div_one, Reading.got_bind,
      receive_of_empty rfl hb (by omega), receive_of_buffered (r := { r1 with buf := b, cnt := 8 }) (by simp only; omega),
      Reading.got_bind, Nat.mod_eq_of_lt hbyte]

/-! ### HuffDecode along known bits -/

/-- HuffDecode over rows that the bits received do not match comes to the rows after them. -/
theorem huffFrom_skip {s : State} {values : List Byte} {rows rest : List CodeRow} {v code : Nat} {r r' : Reader}
    (h : receiveFrom s rows.length v r = .got code r')
    (hmiss : ∀ i (hi : i < rows.length),
      ¬(0 ≤ rows[i].maxcode ∧ ((code / 2 ^ (rows.length - 1 - i) : Nat) : Int) ≤ rows[i].maxcode)) :
    huffFrom s values (rows ++ rest) v r = huffFrom s values rest code r' := by
  induction rows generalizing v r with
  | nil => cases h; rfl
  | cons row rows ih =>
    obtain ⟨bit, r1, hbit, h⟩ := Reading.bind_got h
    have hfirst := hmiss 0 (Nat.succ_pos _)
    simp only [List.length_cons, Nat.add_sub_cancel, Nat.sub_zero, List.getElem_cons_zero, receiveFrom_div h] at hfirst
    rw [List.cons_append, huffFrom, hbit, Reading.got_bind, if_neg hfirst]
    refine ih h fun i hi => ?_
    have hplace : rows.length - 1 - i = (row :: rows).length - 1 - (i + 1) := by
      rw [List.length_cons]
      omega
    rw [hplace]
    exact hmiss (i + 1) (Nat.succ_lt_succ hi)

/-- HuffDecode on bits that match no length so far. -/
theorem huffDecode_of_noMatch {s : State} {slot : Fin 4} {n code : Nat} {r r' : Reader} (hn : n ≤ 16)
    (h : receive s n r = .got code r') (hmiss : NoMatch (s.ht.get slot) n code) :
    huffDecode s slot r =
      huffFrom s (s.ht.get slot).values ((s.ht.get slot).rows.toList.drop n) code r' := by
  have hlen : ((s.ht.get slot).rows.toList.take n).length = n := by simp [hn]
  rw [huffDecode]
  conv_lhs => rw [← List.take_append_drop n (s.ht.get slot).rows.toList]
  refine huffFrom_skip (by rwa [hlen]) fun i hi hmatch => ?_
  rw [hlen] at hi hmatch
  rw [List.getElem_take, Vector.getElem_toList] at hmatch
  obtain hneg | hbelow := hmiss ⟨i, hi.trans_le hn⟩ hi
  · exact absurd hmatch.1 (Int.not_le.2 hneg)
  · exact absurd hmatch.2 (Int.not_le.2 hbelow)

/-- The rows still to try start with the row of the next length. -/
theorem drop_rows (t : HuffTable) (l : Fin 16) : t.rows.toList.drop l.val = t.rows.get l :: t.rows.toList.drop (l.val + 1) := by
  have hl : l.val < t.rows.toList.length := by simp
  rw [List.drop_eq_getElem_cons hl, Vector.getElem_toList]
  rfl

/-- A code's first codes at least double from length to length, and pass the codes of every shorter length. -/
theorem firstCode_shorter (first : Nat) (counts : List Byte) (i k : Nat) :
    (firstCode first counts i + (counts.getD i 0#8).toNat) * 2 ^ (k + 1) ≤ firstCode first counts (i + 1 + k) := by
  induction k with
  | zero => simp [firstCode, Nat.mul_comm]
  | succ k ih =>
    rw [pow_succ, ← Nat.mul_assoc, Nat.mul_comm _ 2]
    exact Nat.mul_le_mul_left 2 (ih.trans (Nat.le_add_right _ _))

/-- The shorter bits of a canonical code lie past every code of their length (41_tables R169). -/
theorem Built.noMatch {t : HuffTable} (h : Built t) {l : Fin 16} {code : Nat} (hmin : (t.rows.get l).mincode ≤ code) :
    NoMatch t l.val (code / 2) := by
  intro i hi
  obtain ⟨k, hk⟩ := Nat.exists_eq_add_of_le (Nat.succ_le_of_lt hi)
  have hbits : code / 2 / 2 ^ (l.val - 1 - i.val) = code / 2 ^ (k + 1) := by
    rw [Nat.div_div_eq_div_mul, pow_succ']
    congr 3
    omega
  have hpast : (t.rows.get i).mincode + (t.rows.get i).count.toNat ≤ code / 2 ^ (k + 1) := by
    rw [Nat.le_div_iff_mul_le (Nat.two_pow_pos _)]
    refine le_trans ?_ hmin
    rw [h.rows_get, h.rows_get, hk]
    exact firstCode_shorter 0 _ i.val k
  have hmatch := canonicalRow_matches_iff (first := 0) (k := 0) (counts := t.rows.toList.map CodeRow.count) (i := i.val)
    (code := code / 2 ^ (k + 1))
  rw [← h.rows_get] at hmatch
  have hmiss := mt (hmatch ((Nat.le_add_right _ _).trans hpast)).1 (Nat.not_lt.2 hpast)
  rw [not_and_or, Int.not_le, Int.not_le] at hmiss
  rwa [hbits]

/-- Settles O39: no shorter length matches a canonical code, and its own length does. -/
theorem canonicalCodeDecodesToItsSymbol : Obligations.CanonicalCodeDecodesToItsSymbol := by
  refine ⟨fun s slot r r' l code hbuilt h => ?_, fun s slot r r' n code h hmiss => ⟨?_, ?_⟩⟩
  · intro row hmin hmax
    rw [receive, receiveFrom_add] at h
    obtain ⟨c, r1, hc, hlast⟩ := Reading.bind_got h
    have hshort : c = code / 2 := by simpa using (receiveFrom_div hlast).symm
    obtain ⟨bit, r2, hbit, hlast⟩ := Reading.bind_got hlast
    cases hlast
    have hmatch : 0 ≤ row.maxcode ∧ ((2 * c + bit.toNat : Nat) : Int) ≤ row.maxcode := ⟨by omega, hmax⟩
    rw [huffDecode_of_noMatch l.isLt.le hc (hshort ▸ hbuilt.noMatch hmin), drop_rows, huffFrom, hbit, Reading.got_bind,
      if_pos hmatch]
    rfl
  · rintro rfl
    rw [huffDecode_of_noMatch le_rfl h hmiss, List.drop_of_length_le (by simp)]
    rfl
  · intro e seen hn hstop
    rw [huffDecode_of_noMatch hn.le h hmiss, drop_rows _ ⟨n, hn⟩, huffFrom, hstop, Reading.stop_bind]

end Sys2Proof.Machine
end

section
/-! PROOF. DECODE_BLOCK: the entropy bytes it reads, how its symbols place coefficients, and the state it leaves
(42_entropy R199 to R204). -/

namespace Sys2Proof.Machine

open Sys2Proof.Claims

/-! ### Consecutive elements in memory -/

/-- Element `i` of the list is what a load at its place gives (42_entropy R202). -/
theorem load_storeHalves {vs : List Half} {a : Word} {m : Memory} (hm : Memory.wf m = true) (hlen : vs.length ≤ 64)
    {i : Nat} (hi : i < vs.length) :
    Memory.load (storeHalves vs a m) 2 (a + BitVec.ofNat 32 (2 * i)) = vs[i].toNat := by
  induction vs generalizing a m i with
  | nil => exact absurd hi (Nat.not_lt_zero i)
  | cons v vs ih =>
    rw [List.length_cons] at hlen hi
    have hstored := Memory.wf_store 2 a v.toNat hm
    cases i with
    | zero =>
      have hlater : ∀ b ∈ bytesFrom a 2, Memory.readByte (storeHalves vs (a + 2#32) (Memory.store m 2 a v.toNat)) b.toNat =
          Memory.readByte (Memory.store m 2 a v.toNat) b.toNat := by
        intro b hb
        refine readByte_storeHalves_of_not_mem fun j hj hmem => ?_
        rw [mem_bytesFrom (by decide)] at hb hmem
        bv_omega
      have hlow : v.toNat % 256 ^ 2 = v.toNat := Nat.mod_eq_of_lt v.isLt
      rw [Nat.mul_zero, add_zero_word, storeHalves, Memory.load_congr hlater,
        Memory.load_store_same a _ (by decide) hm, hlow, List.getElem_cons_zero]
    | succ i =>
      have hstep : a + BitVec.ofNat 32 (2 * (i + 1)) = a + 2#32 + BitVec.ofNat 32 (2 * i) := by bv_omega
      rw [storeHalves, hstep, ih hstored (by omega) (by omega), List.getElem_cons_succ]

/-- The 128 destination bytes of DECODE_BLOCK (42_entropy R202). -/
theorem not_mem_decodePlan {s : State} {x : Word} (h : 128 ≤ (x - s.dstAddr).toNat) : x ∉ writeBytes (decodePlan s) := by
  rw [mem_writeBytes]
  rintro ⟨y, hy, -, hx⟩
  obtain ⟨i, hi, rfl⟩ := List.mem_map.1 hy
  rw [mem_bytesFrom (show 2 ≤ 2 ^ 32 by decide)] at hx
  have hi64 := List.mem_range.1 hi
  bv_omega

/-! ### The state after a body error -/

/-- A body error leaves the predictor of its component, the bit reader and the write set free, and nothing else differs
(60_exceptions R333). -/
theorem decodeStopped_frame (s : State) (c : Fin 3) : ∃ m d, decodeStopped s c = { s with
      pred := s.pred.set c (Config.freeHalf s.draws), bsAddr := Config.freeWord s.draws,
      bitbuf := Config.freeByte s.draws, bitcnt := (Config.freeBitCount s.draws).val, mem := m, draws := d } ∧
    ∀ a : Word, a ∉ writeBytes (decodePlan s) → Memory.readByte m a.toNat = Memory.readByte s.mem a.toNat := by
  have hdraw := fun a => readByte_drawWrites_of_not_mem (plan := decodePlan s) (s := s.drawEntropy c) (a := a)
  obtain ⟨m, d, heq⟩ := drawWrites_frame (decodePlan s) (s.drawEntropy c)
  rw [heq] at hdraw
  exact ⟨m, d, heq, hdraw⟩

/-- What is known of the state in which DECODE_BLOCK has raised an error of its body. -/
theorem decodeStopped_raise (s : State) (c : Fin 3) (code : ErrCode) (addr : Word) :
    let t := (decodeStopped s c).raise code addr
    t.busy = false ∧ t.err = true ∧ t.errcode = errBits code ∧ t.errAddr = addr ∧ t.done = s.done ∧
      t.result = s.result ∧ SameParameters s t ∧ SameQuant s t ∧ SameHuff s t ∧
      (∀ c' : Fin 3, c' ≠ c → t.pred.get c' = s.pred.get c') ∧ t.bitcnt ≤ 8 ∧
      SameMemoryOutside (writeBytes (decodePlan s)) s t := by
  obtain ⟨m, d, heq, hmem⟩ := decodeStopped_frame s c
  rw [heq]
  exact ⟨rfl, rfl, rfl, rfl, rfl, rfl, by constructor <;> rfl, ⟨rfl, rfl⟩, ⟨rfl, rfl⟩,
    fun c' hne => vector_get_set_ne _ _ hne, Nat.le_of_lt_succ (Config.freeBitCount s.draws).isLt, hmem⟩

/-- DECODE_BLOCK with legal fields, valid tables and DST_ADDR even is its body. -/
theorem exec_decodeBlock_body {s : State} {comp : BitVec 2} {d a : Bool} {c : Fin 3} (hc : index3 comp = some c)
    (ht : TablesValid s (.decodeBlock comp d a)) (heven : s.dstAddr.toNat % 2 = 0) :
    exec (.decodeBlock comp d a) s = decodeBody s c (dcSlot d) (acSlot a) := by
  have haligned : Aligned (checkedRegs s (.decodeBlock comp d a)) := List.forall_mem_singleton.2 heven
  rw [exec_decodeBlock hc ht, alignPrologue_of_aligned haligned, afterPrologue_pass]

theorem decodeBody_of_stop {s : State} {c : Fin 3} {dc ac : Fin 4} {e : Stop} {seen : List Access}
    (h : decodeCoeffs s c dc ac = .stop e seen) : decodeBody s c dc ac = stopWith e (decodeStopped s c) := by
  rw [decodeBody, h]

theorem decodeBody_of_got {s : State} {c : Fin 3} {dc ac : Fin 4} {b : Block} {r : Reader}
    (h : decodeCoeffs s c dc ac = .got b r) : decodeBody s c dc ac =
      perform s r.seen (decodePlan s) (decodeFinished s c b r) (decodeStopped s c) := by
  rw [decodeBody, h]

/-- Settles O42: the error is raised in the state that draws the free values. -/
theorem decodeBlockErrorState : Obligations.DecodeBlockErrorState := by
  intro s comp d a c code addr seen hc ht heven hstop
  obtain ⟨hbusy, herr, hcode, haddr, hdone, hresult, hparams, hquant, hhuff, hpred, hbits, hmem⟩ :=
    decodeStopped_raise s c code addr
  refine ⟨_, ?_, hbusy, herr, hcode, haddr, hdone, hresult, hparams, hquant, hhuff, hpred, hbits,
    fun x hx => hmem x (not_mem_decodePlan hx)⟩
  rw [exec_decodeBlock_body hc ht heven, decodeBody_of_stop hstop]
  rfl

/-! ### A decoded block -/

/-- What holds of a block being decoded: its position is in range, its first coefficient is the new predictor, and
nothing is placed from its position on. -/
structure Block.Sound (b : Block) : Prop where
  pos : 1 ≤ b.k
  le : b.k ≤ 64
  first : b.z[0] = b.pred
  rest : ∀ i : Fin 64, b.k ≤ i.val → b.z.get i = 0#16

theorem dcBlock_get (p : Half) (i : Fin 64) : (dcBlock p).z.get i = if i = 0 then p else 0#16 := by
  by_cases hi : i = 0
  · subst hi
    exact vector_get_set_eq (Vector.replicate 64 0#16) 0 p
  · rw [if_neg hi]
    exact (vector_get_set_ne (Vector.replicate 64 0#16) p hi).trans (Vector.getElem_replicate i.isLt)

theorem dcBlock_k (p : Half) : (dcBlock p).k = 1 := rfl

theorem dcBlock_sound (p : Half) : (dcBlock p).Sound where
  pos := le_rfl
  le := Nat.one_le_of_lt (show 1 < 64 by decide)
  first := dcBlock_get p 0
  rest i hi := (dcBlock_get p i).trans (if_neg fun h => by
    rw [h] at hi
    exact absurd hi (Nat.not_succ_le_zero 0))

theorem Block.put_get (b : Block) (k : Nat) (v : Int) (i : Fin 64) :
    (b.put k v).z.get i = if k = i.val then BitVec.ofInt 16 v else b.z.get i :=
  Vector.getElem_setIfInBounds i.isLt

theorem Block.Sound.put {b : Block} (h : b.Sound) {k : Nat} (hle : b.k ≤ k) (hlt : k < 64) (v : Int) :
    (b.put k v).Sound where
  pos := Nat.succ_pos k
  le := hlt
  first := (b.put_get k v 0).trans ((if_neg (Nat.ne_of_gt (h.pos.trans hle))).trans h.first)
  rest i hi := by
    have hk : k < i.val := hi
    rw [b.put_get, if_neg hk.ne]
    exact h.rest i (by omega)

/-- The AC loop keeps a block sound and its predictor. -/
theorem decodeAc_sound {s : State} {slot : Fin 4} {fuel : Nat} {b b' : Block} {r r' : Reader} (hb : b.Sound)
    (h : decodeAc s slot fuel b r = .got b' r') : b'.Sound ∧ b'.pred = b.pred := by
  induction fuel generalizing b r with
  | zero => cases h; exact ⟨hb, rfl⟩
  | succ fuel ih =>
    rw [decodeAc] at h
    split at h
    · cases h; exact ⟨hb, rfl⟩
    obtain ⟨rs, r1, -, h⟩ := Reading.bind_got h
    split at h
    · cases h; exact ⟨hb, rfl⟩
    simp only at h
    split at h
    · cases h
    split at h
    · cases h
    obtain ⟨v, r2, -, h⟩ := Reading.bind_got h
    exact ih (b := b.put _ _) (hb.put (Nat.le_add_right _ _) (by omega) _) h

theorem decodeCoeffs_sound {s : State} {c : Fin 3} {dc ac : Fin 4} {b : Block} {r : Reader}
    (h : decodeCoeffs s c dc ac = .got b r) : b.Sound := by
  obtain ⟨diff, r1, -, h⟩ := Reading.bind_got h
  exact (decodeAc_sound (dcBlock_sound _) h).1

/-- A decoded block whose writes are answered, with no entropy byte among them, completes and stands in memory. -/
theorem exec_decodeBlock_completes {s : State} {comp : BitVec 2} {d a : Bool} {c : Fin 3} {b : Block} {r : Reader}
    (hc : index3 comp = some c) (hwf : Memory.wf s.mem = true) (ht : TablesValid s (.decodeBlock comp d a))
    (heven : s.dstAddr.toNat % 2 = 0) (hb : decodeCoeffs s c (dcSlot d) (acSlot a) = .got b r)
    (hok : BuffersOk s (decodePlan s)) (hd : FootprintsDisjoint (r.seen ++ decodePlan s)) :
    ∃ m, exec (.decodeBlock comp d a) s = .next { s with
        mem := m, pred := s.pred.set c b.pred, bsAddr := r.addr, bitbuf := r.buf, bitcnt := r.cnt, busy := false,
        done := true, result := BitVec.ofNat 32 b.k } ∧
      (∀ i : Fin 64, Memory.load m 2 (s.dstAddr + BitVec.ofNat 32 (2 * i.val)) = (b.z.get i).toNat) ∧
      ∀ x : Word, 128 ≤ (x - s.dstAddr).toNat → Memory.readByte m x.toNat = Memory.readByte s.mem x.toNat := by
  refine ⟨storeHalves b.z.toList s.dstAddr s.mem, ?_, fun i => ?_,
    fun x hx => readByte_storeBlock_of_not_mem_writeBytes b.z (not_mem_decodePlan hx)⟩
  · rw [exec_decodeBlock_body hc ht heven, decodeBody_of_got hb, perform_finishes hok hd]
    rfl
  · have hi : i.val < b.z.toList.length := by simp
    rw [load_storeHalves hwf (by simp) hi, Vector.getElem_toList]
    rfl

/-! ### The entropy bytes read -/

theorem byteReads_succ (a : Word) (n : Nat) : byteReads a (n + 1) = byteReads a n ++ [⟨.read, a + BitVec.ofNat 32 n, 1, 0⟩] := by
  simp [byteReads, List.range_succ]

theorem byteReads_length (a : Word) (n : Nat) : (byteReads a n).length = n := by simp [byteReads]

/-- The reader stands behind the bytes it has read since the command's start, which follow one another (42_entropy
R204). -/
def ReadSoFar (s : State) (r : Reader) : Prop :=
  ∃ n, r.addr.toNat = s.bsAddr.toNat + n ∧ r.seen = byteReads s.bsAddr n

/-- The bytes a reading step has read follow one another from the command's BS_ADDR, also where it stops. -/
def ReadsInOrder {α : Type} (s : State) : Reading α → Prop
  | .got _ r => ReadSoFar s r
  | .stop _ seen => ∃ n, seen = byteReads s.bsAddr n

theorem ReadsInOrder.bind {α β : Type} {s : State} {x : Reading α} {f : α → Reader → Reading β} (hx : ReadsInOrder s x)
    (hf : ∀ a r, ReadSoFar s r → ReadsInOrder s (f a r)) : ReadsInOrder s (x.bind f) := by
  cases x with
  | got a r => exact hf a r hx
  | stop e seen => exact hx

/-- A reader that reads the byte `k` places behind its address, having read those between. -/
theorem saw_readSoFar {s : State} {r : Reader} {n k : Nat} (haddr : r.addr.toNat = s.bsAddr.toNat + n)
    (hseen : r.seen = byteReads s.bsAddr (n + k)) :
    (r.saw (r.addr + BitVec.ofNat 32 k)).seen = byteReads s.bsAddr (n + k + 1) := by
  have hplace : r.addr + BitVec.ofNat 32 k = s.bsAddr + BitVec.ofNat 32 (n + k) := by
    rw [BitVec.ofNat_add, ← BitVec.add_assoc]
    congr 1
    exact BitVec.eq_of_toNat_eq (by rw [BitVec.toNat_add, BitVec.toNat_ofNat]; omega)
  rw [byteReads_succ, Reader.saw, hseen, hplace]

theorem fetchByte_readsInOrder {s : State} {r : Reader} (h : ReadSoFar s r) : ReadsInOrder s (fetchByte s r) := by
  obtain ⟨n, haddr, hseen⟩ := h
  have hbound := s.bsEnd.isLt
  have hfirst := saw_readSoFar (k := 0) haddr hseen
  rw [add_zero_word] at hfirst
  have hsecond := saw_readSoFar (r := r.saw r.addr) (k := 1) haddr hfirst
  by_cases hend : s.bsEnd.toNat ≤ r.addr.toNat
  · rw [fetchByte_at_end hend]
    exact ⟨n, hseen⟩
  simp only [fetchByte, if_neg hend, readEntropy]
  obtain ⟨_, hf⟩ | ⟨_, hf⟩ | ⟨_, hf⟩ := fetch_cases s r.addr <;> simp only [hf, Reading.got_bind, Reading.stop_bind]
  case inr.inl | inr.inr => exact ⟨n, hseen⟩
  split
  · split
    · exact ⟨_, hfirst⟩
    obtain ⟨_, hf2⟩ | ⟨_, hf2⟩ | ⟨_, hf2⟩ := fetch_cases s (r.addr + 1#32) <;>
      simp only [hf2, Reading.got_bind, Reading.stop_bind]
    case inr.inl | inr.inr => exact ⟨_, hfirst⟩
    split
    · refine ⟨n + 2, ?_, hsecond⟩
      simp only [BitVec.toNat_add, BitVec.toNat_ofNat]
      omega
    · exact ⟨_, hsecond⟩
  · refine ⟨n + 1, ?_, hfirst⟩
    simp only [BitVec.toNat_add, BitVec.toNat_ofNat]
    omega

theorem nextBit_readsInOrder {s : State} {r : Reader} (h : ReadSoFar s r) : ReadsInOrder s (nextBit s r) := by
  unfold nextBit
  split
  · exact (fetchByte_readsInOrder h).bind fun _ _ hr => hr
  · exact h

theorem receiveFrom_readsInOrder {s : State} (n v : Nat) {r : Reader} (h : ReadSoFar s r) :
    ReadsInOrder s (receiveFrom s n v r) := by
  induction n generalizing v r with
  | zero => exact h
  | succ n ih => exact (nextBit_readsInOrder h).bind fun _ _ hr => ih _ hr

theorem ReadSoFar.stop {α : Type} {s : State} {r : Reader} (h : ReadSoFar s r) (e : Stop) :
    ReadsInOrder s (.stop e r.seen : Reading α) := by
  obtain ⟨n, -, hseen⟩ := h
  exact ⟨n, hseen⟩

theorem huffFrom_readsInOrder {s : State} {values : List Byte} (rows : List CodeRow) (code : Nat) {r : Reader}
    (h : ReadSoFar s r) : ReadsInOrder s (huffFrom s values rows code r) := by
  induction rows generalizing code r with
  | nil => exact h.stop _
  | cons row rows ih =>
    refine (nextBit_readsInOrder h).bind fun b r hr => ?_
    simp only
    split
    · exact hr
    · exact ih _ hr

theorem decodeAc_readsInOrder {s : State} {slot : Fin 4} (fuel : Nat) (b : Block) {r : Reader} (h : ReadSoFar s r) :
    ReadsInOrder s (decodeAc s slot fuel b r) := by
  induction fuel generalizing b r with
  | zero => exact h
  | succ fuel ih =>
    rw [decodeAc]
    split
    · exact h
    refine (huffFrom_readsInOrder _ _ h).bind fun rs r hr => ?_
    split
    · exact hr
    simp only
    split
    · exact hr.stop _
    split
    · exact hr.stop _
    exact (receiveFrom_readsInOrder _ _ hr).bind fun _ _ hr => ih _ hr

theorem decodeCoeffs_readsInOrder (s : State) (c : Fin 3) (dc ac : Fin 4) :
    ReadsInOrder s (decodeCoeffs s c dc ac) := by
  have hstart : ReadSoFar s (startReader s) := ⟨0, rfl, rfl⟩
  refine ReadsInOrder.bind ?_ fun _ _ hr => decodeAc_readsInOrder _ _ hr
  refine (huffFrom_readsInOrder _ _ hstart).bind fun t r hr => ?_
  split
  · exact hr.stop _
  · exact (receiveFrom_readsInOrder _ _ hr).bind fun _ _ hr => hr

theorem decodeCoeffs_got_seen {s : State} {c : Fin 3} {dc ac : Fin 4} {b : Block} {r : Reader}
    (h : decodeCoeffs s c dc ac = .got b r) :
    s.bsAddr.toNat ≤ r.addr.toNat ∧ r.seen = byteReads s.bsAddr (r.addr.toNat - s.bsAddr.toNat) := by
  have horder := decodeCoeffs_readsInOrder s c dc ac
  rw [h] at horder
  obtain ⟨n, haddr, hseen⟩ := horder
  exact ⟨by omega, by rw [haddr, Nat.add_sub_cancel_left, hseen]⟩

theorem decodeCoeffs_stop_seen {s : State} {c : Fin 3} {dc ac : Fin 4} {e : Stop} {seen : List Access}
    (h : decodeCoeffs s c dc ac = .stop e seen) : seen = byteReads s.bsAddr seen.length := by
  have horder := decodeCoeffs_readsInOrder s c dc ac
  rw [h] at horder
  obtain ⟨n, rfl⟩ := horder
  rw [byteReads_length]

/-! ### The symbols of a block -/

theorem high_nibble (rs : Byte) : (rs.extractLsb' 4 4).toNat = acRun rs := by
  rw [BitVec.extractLsb'_toNat, Nat.shiftRight_eq_div_pow, acRun]
  omega

theorem low_nibble (rs : Byte) : (rs.extractLsb' 0 4).toNat = acSize rs := by
  rw [BitVec.extractLsb'_toNat, Nat.shiftRight_zero, acSize]

section Round

variable {s : State} {slot : Fin 4} {fuel : Nat} {b : Block} {r r1 : Reader} {rs : Byte}

/-- One round of the AC loop after a legal symbol: its value is placed, and the loop goes on behind it. -/
theorem decodeAc_of_legal (hfuel : 64 ≤ b.k + fuel) (hsym : huffDecode s slot r = .got rs r1) (hlegal : AcLegal b.k rs) :
    decodeAc s slot fuel b r = (receive s (acSize rs) r1).bind fun v r2 =>
      decodeAc s slot (fuel - 1) (b.put (b.k + acRun rs) (extend v (acSize rs))) r2 := by
  obtain ⟨hne, hzrl, hsize, hrun⟩ := hlegal
  obtain ⟨fuel, rfl⟩ := Nat.exists_eq_add_one.2 (show 0 < fuel by omega)
  have hcoef : ¬((acSize rs = 0 ∧ acRun rs ≠ 15) ∨ maxAcSize < acSize rs) := by
    rintro (⟨hz, hr⟩ | hs)
    · exact hr (hzrl hz)
    · exact absurd hs (Nat.not_lt.2 hsize)
  rw [decodeAc, if_neg (by omega), hsym, Reading.got_bind, if_neg hne]
  simp only [high_nibble, low_nibble]
  rw [if_neg hcoef, if_neg (by omega), Nat.add_sub_cancel]

theorem decodeAc_of_illegal (hk : b.k < 64) (hfuel : 64 ≤ b.k + fuel) (hsym : huffDecode s slot r = .got rs r1)
    (hne : rs ≠ 0x00#8) (hillegal : ¬AcLegal b.k rs) :
    decodeAc s slot fuel b r = .stop (.error .coef r1.addr) r1.seen := by
  obtain ⟨fuel, rfl⟩ := Nat.exists_eq_add_one.2 (show 0 < fuel by omega)
  rw [decodeAc, if_neg (by omega), hsym, Reading.got_bind, if_neg hne]
  simp only [high_nibble, low_nibble]
  split
  · rfl
  rename_i hcoef
  split
  · rfl
  rename_i hrun
  obtain ⟨hzrl, hsize⟩ := not_or.1 hcoef
  exact absurd ⟨hne, fun hz => by_contra fun hr => hzrl ⟨hz, hr⟩, Nat.not_lt.1 hsize, by omega⟩ hillegal

theorem decodeAc_of_endOfBlock (hk : b.k < 64) (hfuel : 64 ≤ b.k + fuel) (hsym : huffDecode s slot r = .got 0x00#8 r1) :
    decodeAc s slot fuel b r = .got b r1 := by
  obtain ⟨fuel, rfl⟩ := Nat.exists_eq_add_one.2 (show 0 < fuel by omega)
  rw [decodeAc, if_neg (by omega), hsym, Reading.got_bind, if_pos rfl]

theorem decodeAc_of_stop {e : Stop} {seen : List Access} (hk : b.k < 64) (hfuel : 64 ≤ b.k + fuel)
    (hsym : huffDecode s slot r = .stop e seen) : decodeAc s slot fuel b r = .stop e seen := by
  obtain ⟨fuel, rfl⟩ := Nat.exists_eq_add_one.2 (show 0 < fuel by omega)
  rw [decodeAc, if_neg (by omega), hsym, Reading.stop_bind]

theorem decodeAc_full (hk : 64 ≤ b.k) : decodeAc s slot fuel b r = .got b r := by
  cases fuel with
  | zero => rfl
  | succ fuel => rw [decodeAc, if_pos hk]

end Round

/-- The block after the values of AC symbols have been placed. -/
def Block.placed (b : Block) (places : List (Nat × Int)) : Block := places.foldl (fun b x => b.put x.1 x.2) b

theorem Block.placed_pred (b : Block) (places : List (Nat × Int)) : (b.placed places).pred = b.pred := by
  induction places generalizing b with
  | nil => rfl
  | cons x places ih => exact ih (b.put x.1 x.2)

theorem Block.placed_get_of_not_mem {b : Block} {places : List (Nat × Int)} {i : Fin 64}
    (h : i.val ∉ places.map Prod.fst) : (b.placed places).z.get i = b.z.get i := by
  induction places generalizing b with
  | nil => rfl
  | cons x places ih =>
    rw [List.map_cons, List.mem_cons, not_or] at h
    exact (ih h.2).trans ((b.put_get x.1 x.2 i).trans (if_neg (Ne.symm h.1)))

/-- Where no position is named twice, each holds the value placed there. -/
theorem Block.placed_get_of_mem {b : Block} {places : List (Nat × Int)} (hnodup : (places.map Prod.fst).Nodup)
    {x : Nat × Int} (hx : x ∈ places) {i : Fin 64} (hi : i.val = x.1) :
    (b.placed places).z.get i = BitVec.ofInt 16 x.2 := by
  induction places generalizing b with
  | nil => cases hx
  | cons y places ih =>
    obtain ⟨hy, hrest⟩ := List.nodup_cons.1 hnodup
    rcases List.mem_cons.1 hx with rfl | hx
    · exact (placed_get_of_not_mem (b := b.put x.1 x.2) (by rwa [hi])).trans ((b.put_get x.1 x.2 i).trans (if_pos hi.symm))
    · exact ih hrest hx

/-- The places of AC symbols from position `k` on rise from `k`. -/
theorem acPlaces_rising (k : Nat) (items : List (Byte × Nat)) :
    (∀ x ∈ (acPlaces k items).map Prod.fst, k ≤ x) ∧ ((acPlaces k items).map Prod.fst).Nodup := by
  induction items generalizing k with
  | nil => exact ⟨nofun, List.nodup_nil⟩
  | cons item items ih =>
    obtain ⟨hle, hnodup⟩ := ih (k + acRun item.1 + 1)
    rw [acPlaces, List.map_cons]
    refine ⟨?_, List.nodup_cons.2 ⟨fun hmem => ?_, hnodup⟩⟩
    · rintro x (_ | ⟨_, hx⟩)
      · exact Nat.le_add_right _ _
      · have := hle x hx
        omega
    · exact absurd (hle _ hmem) (Nat.not_succ_le_self _)

/-- The AC loop after legal symbols: their values are placed, and the loop goes on at the position behind them. -/
theorem decodeAc_of_symbols {s : State} {slot : Fin 4} {items : List (Byte × Nat)} {fuel k : Nat} {b : Block}
    {r r' : Reader} (hfuel : 64 ≤ b.k + fuel) (h : AcSymbols s slot b.k r items k r') :
    ∃ fuel', 64 ≤ k + fuel' ∧ (b.placed (acPlaces b.k items)).k = k ∧
      decodeAc s slot fuel b r = decodeAc s slot fuel' (b.placed (acPlaces b.k items)) r' := by
  induction items generalizing fuel b r with
  | nil =>
    obtain ⟨rfl, rfl⟩ := h
    exact ⟨fuel, hfuel, rfl, rfl⟩
  | cons item items ih =>
    obtain ⟨rs, v⟩ := item
    obtain ⟨hlegal, r1, r2, hsym, hval, hrest⟩ := h
    rw [decodeAc_of_legal hfuel hsym hlegal, hval, Reading.got_bind]
    exact ih (b := b.put (b.k + acRun rs) (extend v (acSize rs))) (by simp only [Block.put]; omega) hrest

/-- A legal DC category is followed by its value bits (42_entropy R199). -/
theorem decodeDc_of_category {s : State} {slot : Fin 4} {t : Byte} {r r1 : Reader}
    (ht : huffDecode s slot r = .got t r1) (hcat : t.toNat ≤ 11) :
    decodeDc s slot r = (receive s t.toNat r1).bind fun v r => .got (extend v t.toNat) r := by
  rw [decodeDc, ht, Reading.got_bind]
  exact if_neg (Nat.not_lt.2 hcat)

theorem decodeDc_of_largeCategory {s : State} {slot : Fin 4} {t : Byte} {r r1 : Reader}
    (ht : huffDecode s slot r = .got t r1) (hcat : 11 < t.toNat) :
    decodeDc s slot r = .stop (.error .coef r1.addr) r1.seen := by
  rw [decodeDc, ht, Reading.got_bind]
  exact if_pos hcat

/-- A block past its DC coefficient. -/
theorem decodeCoeffs_of_dc {s : State} {c : Fin 3} {dc ac : Fin 4} {t : Byte} {v : Nat} {r1 r2 : Reader}
    (ht : huffDecode s dc (startReader s) = .got t r1) (hcat : t.toNat ≤ 11) (hv : receive s t.toNat r1 = .got v r2) :
    decodeCoeffs s c dc ac =
      decodeAc s ac 63 (dcBlock (BitVec.ofInt 16 ((s.pred.get c).toInt + extend v t.toNat))) r2 := by
  have hpred : nextPred s c (extend v t.toNat) = BitVec.ofInt 16 ((s.pred.get c).toInt + extend v t.toNat) := by
    rw [nextPred, BitVec.ofInt_add, BitVec.ofInt_toInt]
  rw [decodeCoeffs, decodeDc_of_category ht hcat, hv, Reading.got_bind, Reading.got_bind, hpred]

/-- The block that legal AC symbols leave behind a DC coefficient. -/
theorem placed_dcBlock (p : Half) (items : List (Byte × Nat)) :
    let b := (dcBlock p).placed (acPlaces 1 items)
    b.pred = p ∧ b.z.get 0 = p ∧
      (∀ x ∈ acPlaces 1 items, ∀ i : Fin 64, i.val = x.1 → b.z.get i = BitVec.ofInt 16 x.2) ∧
      ∀ i : Fin 64, i ≠ 0 → i.val ∉ (acPlaces 1 items).map Prod.fst → b.z.get i = 0#16 := by
  obtain ⟨hle, hnodup⟩ := acPlaces_rising 1 items
  refine ⟨Block.placed_pred _ _, ?_, fun x hx i hi => Block.placed_get_of_mem hnodup hx hi, fun i hi hmem => ?_⟩
  · rw [Block.placed_get_of_not_mem fun hmem => absurd (hle _ hmem) (Nat.not_succ_le_zero 0), dcBlock_get, if_pos rfl]
  · rw [Block.placed_get_of_not_mem hmem, dcBlock_get, if_neg hi]

/-- Settles O40: the block's invariant, the reader's record, and the AC loop symbol by symbol. -/
theorem decodeBlockWritesItsCoefficients : Obligations.DecodeBlockWritesItsCoefficients := by
  refine ⟨fun s comp d a c b r hc hwf ht heven hb hok hd => ?_, fun s c dc ac => ⟨fun e seen hstop => ?_,
    fun t r1 ht => ⟨fun hcat => ?_, fun e seen hcat hstop => ?_⟩⟩,
    fun s c dc ac => ⟨rfl, fun _ _ => decodeCoeffs_got_seen, fun _ _ => decodeCoeffs_stop_seen⟩,
    fun s c dc ac t v r1 r2 r3 items k ht hcat hv hitems => ?_⟩
  · obtain ⟨m, hexec, hload, hrest⟩ := exec_decodeBlock_completes hc hwf ht heven hb hok hd
    obtain ⟨hpos, hle, hfirst, hzeros⟩ := decodeCoeffs_sound hb
    exact ⟨m, hexec, hpos, hle, hfirst, hzeros, hload, hrest⟩
  · rw [decodeCoeffs, decodeDc, hstop, Reading.stop_bind, Reading.stop_bind]
  · rw [decodeCoeffs, decodeDc_of_largeCategory ht hcat, Reading.stop_bind]
  · rw [decodeCoeffs, decodeDc_of_category ht hcat, hstop, Reading.stop_bind, Reading.stop_bind]
  · intro p
    obtain ⟨fuel, hfuel, hk, hdecode⟩ := decodeAc_of_symbols (b := dcBlock p) (fuel := 63) le_rfl hitems
    rw [← decodeCoeffs_of_dc (c := c) ht hcat hv] at hdecode
    obtain ⟨hpred, hfirst, hplaces, hzeros⟩ := placed_dcBlock p items
    rw [dcBlock_k] at hk hdecode
    have hfuel' := hk.symm ▸ hfuel
    refine ⟨fun r4 hend => ⟨_, ?_, hpred, hk, hfirst, hplaces, hzeros⟩, fun hlt => ⟨fun rs r4 hsym hne hillegal => ?_,
      fun e seen hstop => ?_, fun rs r4 e seen hsym hlegal hstop => ?_⟩⟩
    · rw [hdecode]
      rcases hend with ⟨rfl, rfl⟩ | ⟨hlt, hsym⟩
      · exact decodeAc_full hk.ge
      · exact decodeAc_of_endOfBlock (hk.trans_lt hlt) hfuel' hsym
    · rw [hdecode, decodeAc_of_illegal (hk.trans_lt hlt) hfuel' hsym hne (hk.symm ▸ hillegal)]
    · rw [hdecode, decodeAc_of_stop (hk.trans_lt hlt) hfuel' hstop]
    · rw [hdecode, decodeAc_of_legal hfuel' hsym (hk.symm ▸ hlegal), hstop, Reading.stop_bind]

/-- Settles O41: the block that no AC symbol follows. -/
theorem decodeBlockOfADcOnlyBlock : Obligations.DecodeBlockOfADcOnlyBlock := by
  intro s comp d a c t v r1 r2 r3 hc hwf htables heven ht hcat hv heob hok hd
  have hb := (decodeCoeffs_of_dc (c := c) ht hcat hv).trans
    (decodeAc_of_endOfBlock (show 1 < 64 by decide) (show 64 ≤ 1 + 63 from le_rfl) heob)
  obtain ⟨m, hexec, hload, -⟩ := exec_decodeBlock_completes hc hwf htables heven hb hok hd
  refine ⟨m, _, rfl, hexec, ?_, fun i hpos hlt => ?_⟩
  · have hfirst := hload 0
    rwa [Fin.val_zero, Nat.mul_zero, add_zero_word, dcBlock_get, if_pos rfl] at hfirst
  · have hne : (⟨i, hlt⟩ : Fin 64) ≠ 0 := Fin.ne_of_val_ne (Nat.ne_of_gt hpos)
    have hzero := hload ⟨i, hlt⟩
    rwa [dcBlock_get, if_neg hne] at hzero

end Sys2Proof.Machine
end

section
/-! PROOF. Access lists: which bytes an access touches, when accesses overlap, and the platform's answer to an access
(20_memory R81, R95, R108, 70_reset R381). -/

namespace Sys2Proof.Machine

open Sys2Proof.Claims

/-! ### The bytes of an access -/

theorem bytesFrom_add (a : Word) (m n : Nat) :
    bytesFrom a (m + n) = bytesFrom a m ++ bytesFrom (a + BitVec.ofNat 32 m) n := by
  induction m generalizing a with
  | zero => rw [Nat.zero_add, add_zero_word]; rfl
  | succ m ih => rw [Nat.succ_add, bytesFrom, bytesFrom, ih, List.cons_append, add_ofNat_succ a m]

/-- The bytes from an address on, for any number of them: with 2^32 or more, all there are. -/
theorem mem_bytesFrom_iff {a b : Word} {n : Nat} : b ∈ bytesFrom a n ↔ (b - a).toNat < n := by
  obtain hle | hgt := Nat.le_total n (2 ^ 32)
  · exact mem_bytesFrom hle
  · have hlt := (b - a).isLt
    refine ⟨fun _ => by omega, fun _ => ?_⟩
    rw [← Nat.add_sub_cancel' hgt, bytesFrom_add]
    exact List.mem_append_left _ ((mem_bytesFrom le_rfl).2 hlt)

theorem Access.covers_iff {x : Access} {b : Word} : x.covers b = true ↔ (b - x.addr).toNat < x.size := decide_eq_true_iff

/-- Two accesses meet where some byte lies in both. -/
theorem Access.meets_iff {x y : Access} :
    x.meets y = true ↔ ∃ b : Word, (b - x.addr).toNat < x.size ∧ (b - y.addr).toNat < y.size := by
  simp only [Access.meets, List.any_eq_true, mem_bytesFrom_iff, Access.covers_iff]

theorem Access.isWrite_iff {x : Access} : x.isWrite = true ↔ x.kind = .write := beq_iff_eq

/-- What clashes is an access that is no write and one that is, with a byte in both, but for the two halves of one
read-modify-write (70_reset R381). -/
theorem clash_iff {r w : Access} : clash r w = true ↔ r.kind ≠ .write ∧ w.kind = .write ∧
    (∃ b : Word, (b - r.addr).toNat < r.size ∧ (b - w.addr).toNat < w.size) ∧ ¬(r.kind = .modify ∧ r.step = w.step) := by
  rw [clash, Bool.and_eq_true, Bool.and_eq_true, Bool.and_eq_true, Access.meets_iff, Access.isWrite_iff, and_assoc,
    and_assoc, Bool.not_eq_true', ← Bool.not_eq_true, Access.isWrite_iff, Bool.not_eq_true', ← Bool.not_eq_true,
    Bool.and_eq_true, beq_iff_eq, beq_iff_eq]

theorem overlapping_iff {xs : List Access} : overlapping xs = true ↔ ∃ r ∈ xs, ∃ w ∈ xs, r.kind ≠ .write ∧
    w.kind = .write ∧ (∃ b : Word, (b - r.addr).toNat < r.size ∧ (b - w.addr).toNat < w.size) ∧
    ¬(r.kind = .modify ∧ r.step = w.step) := by
  simp only [overlapping, List.any_eq_true, clash_iff]

/-- In a list without overlaps, a byte that a read and a write share belongs to one read-modify-write. -/
theorem same_step_of_disjoint {xs : List Access} (h : overlapping xs = false) {r w : Access} (hr : r ∈ xs) (hw : w ∈ xs)
    (hread : r.kind ≠ .write) (hwrite : w.kind = .write) {b : Word} (hb : b ∈ bytesFrom r.addr r.size)
    (hb' : b ∈ bytesFrom w.addr w.size) : r.kind = .modify ∧ r.step = w.step := by
  by_contra hstep
  have htrue : overlapping xs = true := overlapping_iff.2
    ⟨r, hr, w, hw, hread, hwrite, ⟨b, mem_bytesFrom_iff.1 hb, mem_bytesFrom_iff.1 hb'⟩, hstep⟩
  simp [h] at htrue

/-! ### The platform's answer -/

/-- A byte of the access lies in the register window. -/
def Inside (c : Config) (a : Word) (n : Nat) : Prop := ∃ b ∈ bytesFrom a n, (b - c.engineBase).toNat < 0x1000

/-- The region answers the access (20_memory R81). -/
def Answers (a : Word) (n : Nat) (r : Region) : Prop :=
  r.base ≤ a.toNat ∧ a.toNat + n ≤ r.base + r.size ∧ n ∈ r.accessSizes

theorem any_inWindow_iff {c : Config} {a : Word} {n : Nat} :
    (bytesFrom a n).any (inWindow c) = true ↔ Inside c a n := by
  simp [inWindow, Inside]

theorem regionCovers_iff {a : Word} {n : Nat} {r : Region} : regionCovers a n r = true ↔ Answers a n r := by
  simp [regionCovers, Answers, and_assoc]

theorem respond_of_inside {c : Config} {a : Word} {n : Nat} (h : Inside c a n) : respond c a n = .busError :=
  if_pos (any_inWindow_iff.2 h)

/-- Outside the window the first region that answers decides. -/
theorem respond_of_first {c : Config} {a : Word} {n : Nat} {before after : List Region} {r : Region}
    (hmap : c.memMap = before ++ r :: after) (hout : ¬Inside c a n) (hr : Answers a n r)
    (hbefore : ∀ r' ∈ before, ¬Answers a n r') :
    respond c a n = if r.sideEffects then .sideEffects else .normal := by
  have hnone : before.find? (regionCovers a n) = none :=
    List.find?_eq_none.2 fun r' hr' => mt regionCovers_iff.1 (hbefore r' hr')
  have hfirst : c.memMap.find? (regionCovers a n) = some r := by
    rw [hmap, List.find?_append, hnone, Option.none_or, List.find?_cons_of_pos (regionCovers_iff.2 hr)]
  rw [respond, if_neg (mt any_inWindow_iff.1 hout), hfirst]

theorem respond_eq_busError_iff {c : Config} {a : Word} {n : Nat} :
    respond c a n = .busError ↔ Inside c a n ∨ ∀ r ∈ c.memMap, ¬Answers a n r := by
  by_cases hin : Inside c a n
  · simp [respond_of_inside hin, hin]
  simp only [hin, false_or]
  rw [respond, if_neg (mt any_inWindow_iff.1 hin)]
  cases hfind : c.memMap.find? (regionCovers a n) with
  | none =>
    simp only [true_iff]
    exact fun r hr => mt regionCovers_iff.2 (List.find?_eq_none.1 hfind r hr)
  | some r =>
    have hr := regionCovers_iff.1 (List.find?_some hfind)
    have hmem := List.mem_of_find?_eq_some hfind
    refine ⟨fun h => ?_, fun h => absurd hr (h r hmem)⟩
    simp only at h
    split at h <;> cases h

end Sys2Proof.Machine
end

section
/-! PROOF. Rectangle commands: each pixel step reads memory as it was at the start, so each element that no later step
overwrites holds its value (20_memory R100, 44_color R260 and R264, 45_pixel R290 and R292, 46_blend R310). -/

namespace Sys2Proof.Machine

open Sys2Proof.Claims

/-! ### Cells in row-major order -/

theorem mem_cells {w h row col : Nat} : (row, col) ∈ cells w h ↔ row < h ∧ col < w := by
  simp [cells]

theorem cells_sorted (w h : Nat) : (cells w h).Pairwise fun x y => x.1 * w + x.2 < y.1 * w + y.2 := by
  rw [cells, List.pairwise_flatMap]
  refine ⟨fun row _ => ?_, ?_⟩
  · rw [List.pairwise_map]
    exact List.pairwise_lt_range.imp fun hlt => Nat.add_lt_add_left hlt _
  · refine List.pairwise_lt_range.imp fun {row row'} hlt x hx y hy => ?_
    obtain ⟨col, hcol, rfl⟩ := List.mem_map.1 hx
    obtain ⟨col', -, rfl⟩ := List.mem_map.1 hy
    have hnext : (row + 1) * w ≤ row' * w := Nat.mul_le_mul_right w hlt
    rw [Nat.succ_mul] at hnext
    have hcol := List.mem_range.1 hcol
    simp only
    omega

/-- The cells before and after one, with their numbers. -/
theorem cells_split {w h row col : Nat} (hrow : row < h) (hcol : col < w) :
    ∃ before after, cells w h = before ++ (row, col) :: after ∧
      (∀ rc ∈ before, rc.1 * w + rc.2 < row * w + col) ∧ ∀ rc ∈ after, row * w + col < rc.1 * w + rc.2 := by
  obtain ⟨before, after, heq⟩ := List.append_of_mem (mem_cells.2 ⟨hrow, hcol⟩)
  have hsorted := cells_sorted w h
  rw [heq, List.pairwise_append, List.pairwise_cons] at hsorted
  obtain ⟨-, ⟨hafter, -⟩, hbefore⟩ := hsorted
  exact ⟨before, after, heq, fun rc hrc => hbefore rc hrc _ List.mem_cons_self, hafter⟩

/-! ### Running pixel steps -/

theorem runPixels_append (xs ys : List Pixel) (m : Memory) : runPixels (xs ++ ys) m = runPixels ys (runPixels xs m) := by
  induction xs generalizing m with
  | nil => rfl
  | cons p xs ih => exact ih _

/-- A step's element holds its value if no later step overwrites it and no earlier one writes what it reads. -/
theorem load_runPixels {before after : List Pixel} {p : Pixel} {m : Memory} (hm : Memory.wf m = true)
    (hsize : p.size ≤ 2 ^ 32) (hafter : ∀ q ∈ after, ∀ b ∈ bytesFrom p.dst p.size, b ∉ bytesFrom q.dst q.size)
    (hvalue : p.value (runPixels before m) = p.value m) :
    Memory.load (runPixels (before ++ p :: after) m) p.size p.dst = p.value m % 256 ^ p.size := by
  rw [runPixels_append, runPixels, hvalue,
    Memory.load_congr fun b hb => readByte_runPixels_of_not_mem fun q hq => hafter q hq b hb]
  exact Memory.load_store_same p.dst _ hsize (wf_runPixels hm)

/-- A pixel step whose accesses before its write are reads, and whose value depends on the bytes they touch alone. -/
structure Pixel.Honest (p : Pixel) : Prop where
  reads : ∀ x ∈ p.reads, x.kind ≠ .write ∧ x.step = p.step
  value : ∀ m m' : Memory,
    (∀ x ∈ p.reads, ∀ b ∈ bytesFrom x.addr x.size, Memory.readByte m b.toNat = Memory.readByte m' b.toNat) →
    p.value m = p.value m'

theorem mem_rectPlan_write {ps : List Pixel} {p : Pixel} (hp : p ∈ ps) :
    (⟨.write, p.dst, p.size, p.step⟩ : Access) ∈ rectPlan ps :=
  List.mem_flatMap.2 ⟨p, hp, List.mem_append_right _ List.mem_cons_self⟩

theorem mem_rectPlan_read {ps : List Pixel} {p : Pixel} (hp : p ∈ ps) {x : Access} (hx : x ∈ p.reads) :
    x ∈ rectPlan ps :=
  List.mem_flatMap.2 ⟨p, hp, List.mem_append_left _ hx⟩

/-- Without overlaps, the steps of other numbers leave what an honest step reads as it was. -/
theorem Pixel.Honest.value_runPixels {p : Pixel} (hp : p.Honest) {ps before : List Pixel} (hmem : p ∈ ps)
    (hbefore : ∀ q ∈ before, q ∈ ps ∧ q.step ≠ p.step) (hd : overlapping (rectPlan ps) = false) (m : Memory) :
    p.value (runPixels before m) = p.value m := by
  refine hp.value _ _ fun x hx b hb => readByte_runPixels_of_not_mem fun q hq hbq => ?_
  obtain ⟨hqmem, hstep⟩ := hbefore q hq
  obtain ⟨hkind, hxstep⟩ := hp.reads x hx
  obtain ⟨-, hsame⟩ := same_step_of_disjoint hd (mem_rectPlan_read hmem hx) (mem_rectPlan_write hqmem) hkind rfl hb hbq
  exact hstep (hsame.symm.trans hxstep)

/-! ### A rectangle command that runs to its end -/

theorem exec_of_rectReady {s : State} {i : Instr} {ps : List Pixel} (hwf : WellFormed i = true)
    (hrect : rectOf s i = some ps) (h : RectReady s i ps) :
    exec i s = .next ((s.setMem (runPixels ps s.mem)).complete 0#32) := by
  rw [exec_eq_execRect hwf hrect, rectPrologue_of_area h.area, alignPrologue_of_aligned h.aligned, execRect,
    afterPrologue_pass]
  exact perform_finishes h.answered h.disjoint

/-- What the pixel steps of a command are: each writes an element of the destination rectangle, of a given size, and its
value on the memory at the start is the one given. -/
structure WritesElements (s : State) (pixel : Nat → Nat → Nat → Pixel) (esz : Nat) (value : Nat → Nat → Nat) : Prop where
  dst : ∀ step row col, (pixel step row col).dst = elem s.dstAddr s.dstStride row col esz
  size : ∀ step row col, (pixel step row col).size = esz
  step : ∀ step row col, (pixel step row col).step = step
  honest : ∀ step row col, (pixel step row col).Honest
  value : ∀ step row col, (pixel step row col).value s.mem % 256 ^ esz = value row col

theorem mem_rectPixels {s : State} {pixel : Nat → Nat → Nat → Pixel} {p : Pixel} : p ∈ rectPixels s pixel ↔
    ∃ row < height s, ∃ col < width s, p = pixel (row * width s + col) row col := by
  simp only [rectPixels, List.mem_map, Prod.exists, mem_cells, and_assoc, eq_comm (b := p)]
  exact ⟨fun ⟨row, col, hrow, hcol, hp⟩ => ⟨row, hrow, col, hcol, hp⟩,
    fun ⟨row, hrow, col, hcol, hp⟩ => ⟨row, col, hrow, hcol, hp⟩⟩

/-- A rectangle command that is ready completes with every element's value in place. -/
theorem rectCompletes {s : State} {i : Instr} {pixel : Nat → Nat → Nat → Pixel} {esz : Nat} {value : Nat → Nat → Nat}
    (hwf : WellFormed i = true) (hrect : rectOf s i = some (rectPixels s pixel))
    (h : RectReady s i (rectPixels s pixel)) (hesz : esz ≤ 2 ^ 32) (hw : WritesElements s pixel esz value) :
    RectCompletes s (exec i s) esz value := by
  refine ⟨_, exec_of_rectReady hwf hrect h, fun row hrow col hcol hlast => ?_,
    fun a ha => readByte_runPixels_of_not_mem fun p hp => ?_⟩
  · obtain ⟨before, after, hcells, hbefore, hafter⟩ := cells_split hrow hcol
    have hmem : ∀ rc ∈ cells (width s) (height s),
        pixel (rc.1 * width s + rc.2) rc.1 rc.2 ∈ rectPixels s pixel := fun rc hrc => List.mem_map_of_mem hrc
    have hin : ∀ rc ∈ before ++ (row, col) :: after, rc ∈ cells (width s) (height s) := fun rc hrc => hcells ▸ hrc
    have hvalue := (hw.honest (row * width s + col) row col).value_runPixels (m := s.mem)
      (before := before.map fun rc => pixel (rc.1 * width s + rc.2) rc.1 rc.2)
      (hmem (row, col) (mem_cells.2 ⟨hrow, hcol⟩)) (fun q hq => ?_) h.disjoint
    · have hload := load_runPixels (p := pixel (row * width s + col) row col) h.wf (by rwa [hw.size])
        (after := after.map fun rc => pixel (rc.1 * width s + rc.2) rc.1 rc.2) (fun q hq b hb => ?_) hvalue
      · rw [hw.size, hw.dst, hw.value] at hload
        rw [rectPixels, hcells, List.map_append, List.map_cons]
        exact hload
      · obtain ⟨⟨row', col'⟩, hrc, rfl⟩ := List.mem_map.1 hq
        obtain ⟨hrow', hcol'⟩ := mem_cells.1 (hin _ (List.mem_append_right _ (List.mem_cons_of_mem _ hrc)))
        rw [hw.dst, hw.size] at hb ⊢
        exact hlast row' hrow' col' hcol' (hafter _ hrc) b hb
    · obtain ⟨rc, hrc, rfl⟩ := List.mem_map.1 hq
      refine ⟨hmem rc (hin rc (List.mem_append_left _ hrc)), ?_⟩
      rw [hw.step, hw.step]
      exact (hbefore rc hrc).ne
  · obtain ⟨row, hrow, col, hcol, rfl⟩ := mem_rectPixels.1 hp
    rw [hw.dst, hw.size]
    exact ha row hrow col hcol

/-! ### The five commands -/

/-- A number read from `n` bytes depends on these alone. -/
theorem load_eq_of_reads {xs : List Access} {m m' : Memory} {x : Access}
    (h : ∀ x ∈ xs, ∀ b ∈ bytesFrom x.addr x.size, Memory.readByte m b.toNat = Memory.readByte m' b.toNat) (hx : x ∈ xs) :
    Memory.load m x.size x.addr = Memory.load m' x.size x.addr :=
  Memory.load_congr (h x hx)

theorem half_toNat_mod (v : Half) : v.toNat % 256 ^ 2 = v.toNat := Nat.mod_eq_of_lt v.isLt

theorem word_toNat_mod (v : Word) : v.toNat % 256 ^ 4 = v.toNat := Nat.mod_eq_of_lt v.isLt

theorem load_mod (m : Memory) (n : Nat) (a : Word) : Memory.load m n a % 256 ^ n = Memory.load m n a :=
  Nat.mod_eq_of_lt (Memory.load_lt m n a)

/-- Settles O47: the step's value is the source sample, bit for bit. -/
theorem upsampleReplicatesSamples : Obligations.UpsampleReplicatesSamples := by
  intro s hr vr hwf hready
  refine rectCompletes hwf rfl hready (by decide) ⟨fun _ _ _ => rfl, fun _ _ _ => rfl, fun _ _ _ => rfl,
    fun step row col => ⟨?_, fun m m' h => load_eq_of_reads h List.mem_cons_self⟩, fun _ _ _ => load_mod _ _ _⟩
  simp [upsamplePixel]

theorem convertPixel_honest (s : State) (srcSize dstSize : Nat) (value : Nat → Nat) (step row col : Nat) :
    (convertPixel s srcSize dstSize value step row col).Honest :=
  ⟨by simp [convertPixel], fun _ _ h => congrArg value (load_eq_of_reads h List.mem_cons_self)⟩

/-- Settles O51: the step's value is the source pixel widened. -/
theorem wideningConvertsEveryPixel : Obligations.WideningConvertsEveryPixel := by
  intro s hready
  exact rectCompletes rfl rfl hready (by decide) ⟨fun _ _ _ => rfl, fun _ _ _ => rfl, fun _ _ _ => rfl,
    convertPixel_honest s 2 4 _, fun _ _ _ => word_toNat_mod _⟩

/-- Settles O52: the step's value is the source pixel packed, in arithmetic. -/
theorem narrowingConvertsEveryPixel : Obligations.NarrowingConvertsEveryPixel := by
  intro s hready
  refine rectCompletes rfl rfl hready (by decide) ⟨fun _ _ _ => rfl, fun _ _ _ => rfl, fun _ _ _ => rfl,
    convertPixel_honest s 4 2 _, fun step row col => ?_⟩
  have hload : Memory.load s.mem 4 (elem s.srcAddr s.srcStride row col 4) < 2 ^ 32 := Memory.load_lt s.mem 4 _
  have hword : (BitVec.ofNat 32 (Memory.load s.mem 4 (elem s.srcAddr s.srcStride row col 4))).toNat =
      Memory.load s.mem 4 (elem s.srcAddr s.srcStride row col 4) := by
    rw [BitVec.toNat_ofNat, Nat.mod_eq_of_lt hload]
  refine (half_toNat_mod _).trans ?_
  rw [to565_eq, pack565_toNat (by omega) (by omega) (by omega), hword]

theorem yccChannel (v : Int) : clamp ((v + 128) >>> 8) 0 255 = min 255 (max 0 ((v + 128) / 256)) := by
  rw [clamp, (shiftRight_eight _).1]

/-- Settles O48: the step's value is the pixel of its samples, the shifts written as divisions. -/
theorem yccPixelsAreConverted : Obligations.YccPixelsAreConverted := by
  intro s gray hready
  refine rectCompletes rfl rfl hready (by decide) ⟨fun _ _ _ => rfl, fun _ _ _ => rfl, fun _ _ _ => rfl,
    fun step row col => ⟨?_, fun m m' h => ?_⟩, fun step row col => ?_⟩
  · cases gray <;> simp [yccPixelStep]
  · have hy := load_eq_of_reads h List.mem_cons_self
    cases gray with
    | true =>
      simp only [yccPixelStep, sampleAt, if_true]
      rw [hy]
    | false =>
      have hcb := load_eq_of_reads h (List.mem_cons_of_mem _ List.mem_cons_self)
      have hcr := load_eq_of_reads h (List.mem_cons_of_mem _ (List.mem_cons_of_mem _ List.mem_cons_self))
      simp only [yccPixelStep, sampleAt]
      rw [hy, hcb, hcr]
  · refine (half_toNat_mod _).trans ?_
    cases gray with
    | true => simp only [sampleAt, yccPixel, yccRed, yccGreen, yccBlue, yccChannel, if_true]
    | false => simp only [sampleAt, yccPixel, yccRed, yccGreen, yccBlue, yccChannel]; rfl

end Sys2Proof.Machine
end

section
/-! PROOF. The blender: BlendPixel in arithmetic, and the pixels BLEND leaves (46_blend R310 to R313). -/

namespace Sys2Proof.Machine

open Sys2Proof.Claims

/-! ### BlendPixel in arithmetic -/

theorem blueOf_eq_div (p : Word) : blueOf p = p.toNat / 2 ^ 0 % 256 := by rw [blueOf_eq, Nat.pow_zero, Nat.div_one]

theorem redOf_le (p : Word) : redOf p ≤ 255 := Nat.le_of_lt_succ (BitVec.isLt _)

theorem greenOf_le (p : Word) : greenOf p ≤ 255 := Nat.le_of_lt_succ (BitVec.isLt _)

theorem blueOf_le (p : Word) : blueOf p ≤ 255 := Nat.le_of_lt_succ (BitVec.isLt _)

theorem overChannel_lt {af cf cb : Nat} (haf : af ≤ 255) (hcf : cf ≤ 255) (hcb : cb ≤ 255) (ab : Nat) :
    overChannel af ab cf cb < 256 := Nat.lt_succ_of_le (overChannel_le haf hcf hcb ab)

/-- Settles O55: the packed channels, each the model's channel of the two pixels' channels. -/
theorem blendPixelIsTheOverFormula : Obligations.BlendPixelIsTheOverFormula := by
  intro e src d h
  have haf := alphaOf_le src
  have hr := fun p => overChannel_lt haf (redOf_le src) (redOf_le p)
  have hg := fun p => overChannel_lt haf (greenOf_le src) (greenOf_le p)
  have hb := fun p => overChannel_lt haf (blueOf_le src) (blueOf_le p)
  simp only [← alphaOf_eq, ← redOf_eq, ← greenOf_eq, ← blueOf_eq_div]
  refine ⟨fun hout => ?_, ?_⟩
  · rw [blendPixel_argb8888 e hout, pack8888_toNat (Nat.lt_succ_of_le (alphaOut_le haf (alphaOf_le d))) (hr d _) (hg d _)
      (hb d _)]
    rfl
  · rw [blendPixel_rgb565, BitVec.toNat_setWidth_of_le (by decide), pack565_toNat (hr _ _) (hg _ _) (hb _ _)]
    rfl

/-! ### BLEND -/

/-- Over an RGB565 destination the result is a pixel of 16 bits. -/
theorem blendPixel_rgb565_lt (e : Rgb565Expand) (src : Word) {v : Nat} (hv : v < 2 ^ 16) :
    (blendPixel e src (BitVec.ofNat 32 v) .rgb565).toNat < 2 ^ 16 := by
  have hhalf : BitVec.ofNat 32 v = (BitVec.ofNat 16 v).setWidth 32 := by
    apply BitVec.eq_of_toNat_eq
    rw [BitVec.toNat_setWidth, BitVec.toNat_ofNat, BitVec.toNat_ofNat, Nat.mod_eq_of_lt hv]
  rw [hhalf, blendPixel_rgb565, BitVec.toNat_setWidth_of_le (by decide)]
  exact BitVec.isLt _

/-- A copied pixel reads its source; a blended one its source and its destination. -/
theorem blendPixelStep_honest (s : State) (sf df : PixelFormat) (step row col : Nat) :
    (blendPixelStep s sf df step row col).Honest := by
  cases sf with
  | rgb565 =>
    exact ⟨by simp [blendPixelStep], fun _ _ h =>
      congrArg (copyPixel s.cfg.expand · df) (load_eq_of_reads h List.mem_cons_self)⟩
  | argb8888 =>
    refine ⟨by simp [blendPixelStep], fun m m' h => ?_⟩
    have hsrc := load_eq_of_reads h List.mem_cons_self
    have hdst := load_eq_of_reads h (List.mem_cons_of_mem _ List.mem_cons_self)
    simp only [blendPixelStep, bpp] at hsrc hdst ⊢
    rw [hsrc, hdst]

/-- Settles O54: the step's value is the copied or the blended pixel, which fits the destination's size. -/
theorem blendCompositesEveryPixel : Obligations.BlendCompositesEveryPixel := by
  intro s sf df hready
  refine rectCompletes rfl rfl hready (by cases df <;> decide) ⟨fun _ _ _ => rfl, fun _ _ _ => rfl, fun _ _ _ => rfl,
    blendPixelStep_honest s sf df, fun step row col => ?_⟩
  cases sf with
  | rgb565 =>
    cases df with
    | rgb565 => exact load_mod _ _ _
    | argb8888 => exact word_toNat_mod _
  | argb8888 =>
    cases df with
    | rgb565 => exact Nat.mod_eq_of_lt (blendPixel_rgb565_lt _ _ (Memory.load_lt _ 2 _))
    | argb8888 => exact word_toNat_mod _

end Sys2Proof.Machine
end

section
/-! PROOF. With GRAY = 1 YCC2RGB has no use for the chroma registers (44_color R264). -/

namespace Sys2Proof.Machine

open Sys2Proof.Claims

/-- The state with the chroma registers changed. -/
def State.withChroma (s : State) (a1 a2 st : Word) : State := { s with auxAddr := a1, aux2Addr := a2, auxStride := st }

/-- The second answer is the first with the chroma registers of its state changed. -/
def SameButChroma (a1 a2 st : Word) (x y : Answer) : Prop :=
  (∀ t, x = .next t → y = .next (t.withChroma a1 a2 st)) ∧ ∀ f, x = .fault f → y = .fault f

section
variable {a1 a2 st : Word}

theorem SameButChroma.next {s t : State} (h : t = s.withChroma a1 a2 st) :
    SameButChroma a1 a2 st (.next s) (.next t) :=
  ⟨fun _ hs => by rw [h, Host.Outcome.next.inj hs], nofun⟩

theorem SameButChroma.fault (f : Fault) : SameButChroma a1 a2 st (.fault f) (.fault f) := ⟨fun _ h => (by cases h), fun _ h => h⟩

theorem drawBytes_withChroma (as : List Word) (s : State) :
    (s.withChroma a1 a2 st).drawBytes as = (s.drawBytes as).withChroma a1 a2 st := by
  induction as generalizing s with
  | nil => rfl
  | cons a as ih => exact ih { s with mem := Memory.writeByte s.mem a.toNat (Config.freeByte s.draws), draws := s.draws + 1 }

theorem SameButChroma.stopWith (stop : Stop) (s : State) :
    SameButChroma a1 a2 st (stopWith stop s) (stopWith stop (s.withChroma a1 a2 st)) := by
  cases stop with
  | error code addr => exact .next rfl
  | sideEffect addr => exact .fault _

theorem SameButChroma.perform (s finished stopped : State) (plan : List Access) :
    SameButChroma a1 a2 st (perform s [] plan finished stopped)
      (perform (s.withChroma a1 a2 st) [] plan (finished.withChroma a1 a2 st) (stopped.withChroma a1 a2 st)) := by
  have hcfg : (s.withChroma a1 a2 st).cfg = s.cfg := rfl
  rw [Machine.perform, Machine.perform, hcfg]
  by_cases hd : overlapping ([] ++ (survey s.cfg plan).1) = true
  · rw [if_pos hd, if_pos hd]
    exact .fault _
  · rw [if_neg hd, if_neg hd]
    cases (survey s.cfg plan).2 with
    | none => exact .next rfl
    | some stop => exact .stopWith _ _

theorem SameButChroma.afterPrologue (p : Prologue) (s : State) {x y : Answer} (h : SameButChroma a1 a2 st x y) :
    SameButChroma a1 a2 st (afterPrologue p s x) (afterPrologue p (s.withChroma a1 a2 st) y) := by
  cases p with
  | pass => exact h
  | zeroArea => exact .next rfl
  | error code addr => exact .next rfl

end

/-- Settles O50: registers checked and pixel steps are those of the state as it was, and every later state differs in the
chroma registers alone. -/
theorem grayIgnoresTheChromaRegisters : Obligations.GrayIgnoresTheChromaRegisters := by
  intro s a1 a2 st
  have hregs : yccRegs (s.withChroma a1 a2 st) true = yccRegs s true := rfl
  have hw : width (s.withChroma a1 a2 st) = width s := rfl
  have hh : height (s.withChroma a1 a2 st) = height s := rfl
  have hstep : yccPixelStep (s.withChroma a1 a2 st) true = yccPixelStep s true := by
    funext step row col
    simp only [yccPixelStep, if_true, State.withChroma]
  have hpixels : yccPixels (s.withChroma a1 a2 st) true = yccPixels s true := by
    rw [yccPixels, yccPixels, hstep, rectPixels, rectPixels, hw, hh]
  have hprologue : rectPrologue (s.withChroma a1 a2 st) (yccRegs s true) = rectPrologue s (yccRegs s true) := by
    rw [rectPrologue, rectPrologue, hw, hh]
  have hsame : SameButChroma a1 a2 st (execYcc2rgb true s) (execYcc2rgb true (s.withChroma a1 a2 st)) := by
    rw [execYcc2rgb, execYcc2rgb, hregs, hpixels, hprologue]
    refine .afterPrologue _ _ ?_
    rw [State.drawWrites, State.drawWrites, drawBytes_withChroma]
    exact .perform _ _ _ _
  have hexec : ∀ u, exec (.ycc2rgb true) u = execYcc2rgb true u := fun _ => rfl
  rwa [← hexec, ← hexec] at hsame

end Sys2Proof.Machine
end

section
/-! PROOF. IDCT: the bounds of the transform's passes, and the samples it leaves (43_idct R230, R238, R239). -/

namespace Sys2Proof.Machine

open Sys2Proof.Claims

/-! ### The bounds -/

/-- Each row result is a bounded combination of the eight coefficients. -/
theorem rowPass_bounded {b : Fin 8 → Int} (hb : ∀ u, -32768 ≤ b u ∧ b u ≤ 32767) :
    ∀ x ∈ rowPass (b 0) (b 1) (b 2) (b 3) (b 4) (b 5) (b 6) (b 7), -3318541 ≤ x ∧ x ≤ 3318541 := by
  have h0 := hb 0
  have h1 := hb 1
  have h2 := hb 2
  have h3 := hb 3
  have h4 := hb 4
  have h5 := hb 5
  have h6 := hb 6
  have h7 := hb 7
  rw [rowPass_eq_passResults]
  simp only [passResults, List.mem_cons, List.not_mem_nil, or_false, forall_eq_or_imp, forall_eq]
  omega

/-- Each column result is a bounded combination of eight row results. -/
theorem colPass_bounded {b : Fin 8 → Int} (hb : ∀ u, -3318541 ≤ b u ∧ b u ≤ 3318541) :
    ∀ x ∈ colPass (b 0) (b 1) (b 2) (b 3) (b 4) (b 5) (b 6) (b 7), -656417 ≤ x ∧ x ≤ 656417 := by
  have h0 := hb 0
  have h1 := hb 1
  have h2 := hb 2
  have h3 := hb 3
  have h4 := hb 4
  have h5 := hb 5
  have h6 := hb 6
  have h7 := hb 7
  rw [colPass_eq_passResults]
  simp only [passResults, List.mem_cons, List.not_mem_nil, or_false, forall_eq_or_imp, forall_eq]
  omega

/-- What holds of the entries and of the value outside the list holds of every lookup. -/
theorem getD_bounded {lo hi : Int} {xs : List Int} (h : ∀ x ∈ xs, lo ≤ x ∧ x ≤ hi) (hlo : lo ≤ 0) (hhi : 0 ≤ hi)
    (i : Nat) : lo ≤ xs.getD i 0 ∧ xs.getD i 0 ≤ hi := by
  obtain hi' | hi' := Nat.lt_or_ge i xs.length
  · rw [List.getD_eq_getElem _ _ hi']
    exact h _ (List.getElem_mem hi')
  · rw [List.getD_eq_default _ _ hi']
    exact ⟨hlo, hhi⟩

/-- Settles O46: the bounds of the two passes, one after the other. -/
theorem transformOutputsAreBounded : Obligations.TransformOutputsAreBounded := by
  refine ⟨fun b hb => rowPass_bounded hb, fun f hf row col => ?_⟩
  obtain hcol | hcol := Nat.lt_or_ge col 8
  · rw [idctCore_eq_passOn f hcol]
    refine getD_bounded (colPass_bounded (b := fun v => (passOn rowPass fun u => f.getD (8 * v.val + u) 0).getD col 0)
      fun v => ?_) (by decide) (by decide) row
    exact getD_bounded (rowPass_bounded (b := fun u => f.getD (8 * v.val + u.val) 0)
      fun u => getD_bounded hf (by decide) (by decide) _) (by decide) (by decide) col
  · have hempty : idctCore .cw11 f row col = 0 := by simp [idctCore, colResults, hcol]
    rw [hempty]
    decide

/-! ### The samples -/

theorem storeSamples_append (s : State) (sample : Nat × Nat → Int) (xs ys : List (Nat × Nat)) (m : Memory) :
    storeSamples s sample (xs ++ ys) m = storeSamples s sample ys (storeSamples s sample xs m) := by
  induction xs generalizing m with
  | nil => rfl
  | cons rc xs ih => exact ih _

/-- A sample that no later one overwrites is in place. -/
theorem load_storeSamples {s : State} {sample : Nat × Nat → Int} {before after : List (Nat × Nat)} {rc : Nat × Nat}
    {m : Memory} (hm : Memory.wf m = true)
    (hafter : ∀ rc' ∈ after, ∀ b ∈ bytesFrom (idctDst s rc) 2, b ∉ bytesFrom (idctDst s rc') 2) :
    Memory.load (storeSamples s sample (before ++ rc :: after) m) 2 (idctDst s rc) =
      (BitVec.ofInt 16 (sample rc)).toNat := by
  rw [storeSamples_append, storeSamples,
    Memory.load_congr fun b hb => readByte_storeSamples_of_not_mem fun rc' hrc' => hafter rc' hrc' b hb,
    Memory.load_store_same _ _ (by decide) (wf_storeSamples hm)]
  exact half_toNat_mod _

theorem complete_setMem (s : State) (m : Memory) (v : Word) :
    (s.setMem m).complete v = { s with mem := m, busy := false, done := true, result := v } := rfl

theorem exec_idct_completes {s : State} {qsel : BitVec 2} {lshift raw : Bool} {q : Fin 3} (hq : index3 qsel = some q)
    (ht : TablesValid s (.idct qsel lshift raw)) (ha : Aligned (checkedRegs s (.idct qsel lshift raw)))
    (hok : BuffersOk s (idctPlan s)) (hd : FootprintsDisjoint (idctPlan s)) :
    exec (.idct qsel lshift raw) s =
      .next { s with mem := idctMem s q lshift raw, busy := false, done := true, result := 0#32 } := by
  have hexec : exec (.idct qsel lshift raw) s = execIdct qsel lshift raw s := rfl
  rw [hexec, execIdct, hq]
  simp only
  rw [idctPrologue_of_valid hq ht, alignPrologue_of_aligned ha, afterPrologue_pass, ← complete_setMem]
  exact perform_finishes hok hd

/-- Settles O43: the samples are stored in row-major order after all the coefficients are read. -/
theorem idctWritesItsSamples : Obligations.IdctWritesItsSamples := by
  intro s qsel lshift raw q hq hm ht ha hok hd z f sample
  refine ⟨idctMem s q lshift raw, exec_idct_completes hq ht ha hok hd, fun row hrow col hcol hlast => ?_, fun a hout => ?_⟩
  · obtain ⟨before, after, hcells, -, hafter⟩ := cells_split hrow hcol
    have hload := load_storeSamples (s := s)
      (sample := fun rc => idctSample s.cfg (idctCore s.cfg.kernel f rc.1 rc.2) lshift) (before := before)
      (after := after) (rc := (row, col)) hm fun rc' hrc' b hb => ?_
    · rw [← hcells] at hload
      exact hload
    · obtain ⟨hrow', hcol'⟩ := mem_cells.1 (hcells ▸ List.mem_append_right _ (List.mem_cons_of_mem _ hrc'))
      exact hlast rc'.1 hrow' rc'.2 hcol' (hafter rc' hrc') b hb
  · refine readByte_storeSamples_of_not_mem fun rc hrc => ?_
    obtain ⟨hrow, hcol⟩ := mem_cells.1 hrc
    exact hout rc.1 hrow rc.2 hcol

end Sys2Proof.Machine
end

section
/-! PROOF. The first access that fails, and the order of each command's accesses (20_memory R100, 41_tables R161 and R166,
60_exceptions R331 and R333). -/

namespace Sys2Proof.Machine

open Sys2Proof.Claims

/-! ### A segment load that stops before an entry, a count or a symbol -/

theorem bytesAre_singleton {s : State} {a : Word} (h : respond s.cfg a 1 = .normal) :
    BytesAre s a [Memory.readByte s.mem a.toNat] := ⟨⟨h, rfl⟩, trivial⟩

/-- A load stops at the first byte of the length field that does not answer. -/
theorem loadSegment_stop {s : State} {got : List Byte} {e : Stop} (h : BytesAre s s.srcAddr got) (hlt : got.length < 2)
    (he : fetch s (s.srcAddr + BitVec.ofNat 32 got.length) = .error e) (least : Nat) (tables : Nat → LoadEnd) :
    loadSegment s least tables = loadStop s 0 s.srcAddr s.srcAddr e := by
  rw [loadSegment, fetchBytes_stop h hlt he]

theorem exec_load_lengthStop {s : State} {i : Instr} {got : List Byte} {e : Stop} (hi : i = .loadDqt ∨ i = .loadDht)
    (h : BytesAre s s.srcAddr got) (hlt : got.length < 2)
    (he : fetch s (s.srcAddr + BitVec.ofNat 32 got.length) = .error e) : exec i s = stopWith e s := by
  obtain rfl | rfl := hi
  · rw [exec, execLoadDqt, loadDqtEnd, loadSegment_stop h hlt he, loadAnswer_loadStop]
  · rw [exec, execLoadDht, loadDhtEnd, loadSegment_stop h hlt he, loadAnswer_loadStop]

theorem exec_loadDqt_idStop {s : State} {len : Nat} {ts : List (Fin 3 × QuantTable)} {e : Stop}
    (hlen : SegmentLength s len) (hmore : 67 + 65 * ts.length ≤ len) (hseg : QuantSegment s (s.srcAddr + 2#32) ts)
    (he : fetch s (s.srcAddr + BitVec.ofNat 32 (2 + 65 * ts.length)) = .error e) :
    exec .loadDqt s = stopWith e (commitQuant s ts) := by
  have hid := ((sameBytes_commitQuant s ts).fetch _).trans he
  rw [exec, execLoadDqt, loadDqtEnd_after hlen (by omega) (by omega) hseg,
    quantTables_idStop (by omega) (by omega) hid, loadAnswer_loadStop]

theorem exec_loadDht_idStop {s : State} {len : Nat} {es : List HuffEntry} {e : Stop} (hlen : SegmentLength s len)
    (hmore : 19 + huffSize es ≤ len) (hseg : HuffSegment s (s.srcAddr + 2#32) es)
    (he : fetch s (s.srcAddr + BitVec.ofNat 32 (2 + huffSize es)) = .error e) :
    exec .loadDht s = stopWith e (commitHuff s es) := by
  have hcount := length_le_huffSize es
  have hid := ((sameBytes_commitHuff s es).fetch _).trans he
  rw [exec, execLoadDht, loadDhtEnd_after hlen (by omega) (by omega) hseg,
    huffTables_idStop (by omega) (by omega) hid, loadAnswer_loadStop]

/-! ### Each command's accesses in order -/

theorem rectPlan_rectPixels (s : State) (pixel : Nat → Nat → Nat → Pixel) : rectPlan (rectPixels s pixel) =
    (List.range (s.dim.toNat / 65536)).flatMap fun row => (List.range (s.dim.toNat % 65536)).flatMap fun col =>
      pixelAccesses (pixel (row * (s.dim.toNat % 65536) + col) row col) := by
  simp only [rectPlan, rectPixels, cells, width_eq, height_eq, List.flatMap_map, List.map_flatMap, List.flatMap_assoc]

theorem idctPlan_eq_accessSequence (s : State) (q : BitVec 2) (lshift raw : Bool) :
    idctPlan s = accessSequence s (.idct q lshift raw) := by
  simp only [idctPlan, accessSequence, cells, List.map_flatMap, List.map_map]
  rfl

theorem planOf_eq_accessSequence {s : State} {i : Instr} {plan : List Access} (h : planOf s i = some plan) :
    plan = accessSequence s i := by
  cases i with
  | idct q lshift raw => cases h; exact idctPlan_eq_accessSequence s q lshift raw
  | upsample | cvt565To8888 | cvt8888To565 => cases h; exact rectPlan_rectPixels s _
  | ycc2rgb gray =>
    cases h
    cases gray with
    | true => exact rectPlan_rectPixels s _
    | false => exact rectPlan_rectPixels s _
  | blend sf df =>
    cases h
    cases sf with
    | rgb565 => exact rectPlan_rectPixels s _
    | argb8888 => exact rectPlan_rectPixels s _
  | nop | resetDc | restart | loadDqt | loadDht | decodeBlock => cases h

/-! ### A body that comes to an access that fails -/

/-- The rectangle commands and IDCT draw their write set and raise BUS. -/
theorem plan_raises_bus {s : State} {i : Instr} {before after : List Access} {x : Access} (hwf : WellFormed i = true)
    (ht : TablesValid s i) (hplan : planOf s i = some (before ++ x :: after)) (harea : rectOf s i ≠ none → HasArea s)
    (haligned : Aligned (checkedRegs s i)) (hok : BuffersOk s before) (hbus : respond s.cfg x.addr x.size = .busError)
    (hd : overlapping before = false) :
    exec i s = .next ((s.drawWrites (before ++ x :: after)).raise .bus x.addr) := by
  obtain ⟨m, hexec⟩ := exec_of_planOf hwf ht hplan harea
  rw [hexec, alignPrologue_of_aligned haligned, afterPrologue_pass]
  exact (perform_stops (before := []) hok hd).1 hbus

theorem decodeBlock_raises_bus {s : State} {comp : BitVec 2} {d a : Bool} {c : Fin 3} {b : Block} {r : Reader}
    {before after : List Access} {x : Access} (hc : index3 comp = some c) (ht : TablesValid s (.decodeBlock comp d a))
    (heven : s.dstAddr.toNat % 2 = 0) (hb : decodeCoeffs s c (dcSlot d) (acSlot a) = .got b r)
    (hplan : decodePlan s = before ++ x :: after) (hok : BuffersOk s before)
    (hbus : respond s.cfg x.addr x.size = .busError) (hd : overlapping (r.seen ++ before) = false) :
    exec (.decodeBlock comp d a) s = .next ((decodeStopped s c).raise .bus x.addr) := by
  rw [exec_decodeBlock_body hc ht heven, decodeBody_of_got hb, hplan]
  exact (perform_stops hok hd).1 hbus

/-- Settles O23: the stops at the accesses of each command, the platform's answers, and the plans in order. -/
theorem firstFailingAccessRaisesBus : Obligations.FirstFailingAccessRaisesBus := by
  refine ⟨?_, ?_, fun s i hi => ⟨fun hbus => ?_, fun hnormal hbus => ?_⟩,
    fun s len ts hlen hmore hseg hbus => exec_loadDqt_idStop hlen hmore hseg (fetch_of_busError hbus),
    fun s len es hlen hmore hseg hbus => exec_loadDht_idStop hlen hmore hseg (fetch_of_busError hbus),
    fun c a n => ⟨respond_eq_busError_iff, fun before after r hmap hout hr hbefore =>
      respond_of_first hmap hout hr hbefore⟩,
    fun s => ⟨fun i plan => planOf_eq_accessSequence, fun _ _ _ => rfl⟩⟩
  · rintro s i plan before after x hwf ht hplan harea haligned rfl hok hbus hd
    have hexec := plan_raises_bus hwf ht hplan harea haligned hok hbus hd
    obtain ⟨m, n, hdraw⟩ := drawWrites_frame (before ++ x :: after) s
    rw [hdraw] at hexec
    exact ⟨_, hexec, rfl, rfl, rfl, rfl, rfl, rfl, by constructor <;> rfl, by constructor <;> rfl, ⟨rfl, rfl⟩, ⟨rfl, rfl⟩,
      (exec_ruleFrame hexec).mem⟩
  · intro s comp d a c b r before after x hc ht heven hb hplan hok hbus hd
    have hexec := decodeBlock_raises_bus hc ht heven hb hplan hok hbus hd
    obtain ⟨hbusy, herr, hcode, haddr, hdone, hresult, hparams, hquant, hhuff, hpred, hbits, -⟩ :=
      decodeStopped_raise s c .bus x.addr
    exact ⟨_, hexec, hbusy, herr, hcode, haddr, hdone, hresult, hparams, hquant, hhuff, hpred, hbits,
      (exec_ruleFrame hexec).mem⟩
  · exact exec_load_lengthStop (got := []) hi trivial (by decide) (by rw [List.length_nil, add_zero_word, fetch_of_busError hbus])
  · exact exec_load_lengthStop hi (bytesAre_singleton hnormal) (by decide : 1 < 2) (fetch_of_busError hbus)

end Sys2Proof.Machine
end

section
/-! PROOF. The hazards: a command that reads a byte it writes, and an access to memory with side effects (20_memory R95,
70_reset R381). -/

namespace Sys2Proof.Machine

open Sys2Proof.Claims

/-! ### Overlaps -/

theorem overlapping_of_meets {xs : List Access} {r w : Access} (hr : r ∈ xs) (hw : w ∈ xs) (hread : r.kind = .read)
    (hwrite : w.kind = .write) (hmeets : r.meets w = true) : overlapping xs = true :=
  overlapping_iff.2 ⟨r, hr, w, hw, by simp [hread], hwrite, Access.meets_iff.1 hmeets, by simp [hread]⟩

/-- A body whose accesses are all answered and overlap is the overlap fault. -/
theorem perform_overlaps {s finished stopped : State} {before plan : List Access} (hok : BuffersOk s plan)
    (h : overlapping (before ++ plan) = true) : perform s before plan finished stopped = .fault .hazardOverlap := by
  simp [perform, survey_complete hok, h]

/-- Every command but DECODE_BLOCK writes no memory, or has its footprint and its body over one list of accesses. -/
theorem footprint_planned (s : State) {i : Instr} (hi : ∀ c d a, i ≠ .decodeBlock c d a) :
    (footprint i s).writes = [] ∨ ∃ (p : Prologue) (plan : List Access) (m : Memory),
      footprint i s = planFootprint p plan ∧
      exec i s = afterPrologue p s (perform s [] plan ((s.setMem m).complete 0#32) (s.drawWrites plan)) := by
  cases i with
  | nop | resetDc | restart | loadDqt | loadDht => exact .inl rfl
  | decodeBlock c d a => exact absurd rfl (hi c d a)
  | idct q lshift raw =>
    rw [footprint, exec, execIdct]
    cases index3 q with
    | none => exact .inl rfl
    | some k => exact .inr ⟨_, _, _, rfl, rfl⟩
  | upsample | ycc2rgb | cvt565To8888 | cvt8888To565 | blend => exact .inr ⟨_, _, _, rfl, rfl⟩

theorem mem_planFootprint_pass {plan : List Access} {x : Access} :
    (x ∈ (planFootprint .pass plan).reads ↔ x ∈ plan ∧ x.kind ≠ .write) ∧
      (x ∈ (planFootprint .pass plan).writes ↔ x ∈ plan ∧ x.kind = .write) := by
  simp [planFootprint, Access.isWrite]

theorem planFootprint_not_pass {p : Prologue} (h : p ≠ .pass) (plan : List Access) : planFootprint p plan = ⟨[], []⟩ := by
  cases p with
  | pass => exact absurd rfl h
  | zeroArea | error => rfl

/-- A command whose footprint reads a byte it writes, and whose accesses are all answered, is the overlap fault. -/
theorem exec_of_footprint_overlap {s : State} {i : Instr} (hi : ∀ c d a, i ≠ .decodeBlock c d a)
    (hok : BuffersOk s ((footprint i s).reads ++ (footprint i s).writes)) {r w : Access} (hr : r ∈ (footprint i s).reads)
    (hread : r.kind = .read) (hw : w ∈ (footprint i s).writes) (hmeets : r.meets w = true) :
    exec i s = .fault .hazardOverlap := by
  obtain hnone | ⟨p, plan, m, hfoot, hexec⟩ := footprint_planned s hi
  · rw [hnone] at hw
    exact absurd hw List.not_mem_nil
  rw [hfoot] at hok hr hw
  by_cases hp : p = .pass
  · subst hp
    obtain ⟨hwmem, hwrite⟩ := mem_planFootprint_pass.2.1 hw
    have hplan : BuffersOk s plan := fun x hx => hok x <| List.mem_append.2 <|
      (Decidable.em (x.kind = .write)).elim (fun h => .inr (mem_planFootprint_pass.2.2 ⟨hx, h⟩))
        fun h => .inl (mem_planFootprint_pass.1.2 ⟨hx, h⟩)
    rw [hexec, afterPrologue_pass]
    exact perform_overlaps hplan (overlapping_of_meets (mem_planFootprint_pass.1.1 hr).1 hwmem hread hwrite hmeets)
  · rw [planFootprint_not_pass hp] at hw
    exact absurd hw List.not_mem_nil

/-- A cell's number in row-major order gives its row and its column. -/
theorem cell_of_number {w row col : Nat} (hcol : col < w) : (row * w + col) / w = row ∧ (row * w + col) % w = col := by
  rw [Nat.add_comm, Nat.add_mul_div_right _ _ (Nat.zero_lt_of_lt hcol), Nat.add_mul_mod_self_right,
    Nat.div_eq_of_lt hcol, Nat.mod_eq_of_lt hcol, Nat.zero_add]
  exact ⟨rfl, rfl⟩

/-- Two pixels of BLEND with alpha that share a destination element: the one's read meets the other's write. -/
theorem overlapping_of_shared_destination {s : State} {df : PixelFormat} {row col row' col' : Nat} (hrow : row < height s)
    (hcol : col < width s) (hrow' : row' < height s) (hcol' : col' < width s) (hne : (row, col) ≠ (row', col'))
    (hsame : elem s.dstAddr s.dstStride row col (bpp df) = elem s.dstAddr s.dstStride row' col' (bpp df)) :
    overlapping (rectPlan (blendPixels s .argb8888 df)) = true := by
  have hr := mem_rectPlan_read (mem_rectPixels.2 ⟨row, hrow, col, hcol, rfl⟩ :
      blendPixelStep s .argb8888 df (row * width s + col) row col ∈ blendPixels s .argb8888 df)
    (List.mem_cons_of_mem _ List.mem_cons_self)
  have hw := mem_rectPlan_write (mem_rectPixels.2 ⟨row', hrow', col', hcol', rfl⟩ :
      blendPixelStep s .argb8888 df (row' * width s + col') row' col' ∈ blendPixels s .argb8888 df)
  have hsize : 0 < bpp df := by cases df <;> decide
  refine overlapping_iff.2 ⟨_, hr, _, hw, nofun, rfl,
    ⟨elem s.dstAddr s.dstStride row col (bpp df), by simpa using hsize, ?_⟩, fun ⟨_, hstep⟩ => hne ?_⟩
  · simpa [blendPixelStep, hsame] using hsize
  · obtain ⟨hdiv, hmod⟩ := cell_of_number (row := row) hcol
    obtain ⟨hdiv', hmod'⟩ := cell_of_number (row := row') hcol'
    have hnumber : row * width s + col = row' * width s + col' := hstep
    rw [hnumber] at hdiv hmod
    exact Prod.ext (hdiv.symm.trans hdiv') (hmod.symm.trans hmod')

theorem exec_blend_sharedDestination {s : State} {df : PixelFormat} {row col row' col' : Nat} (harea : HasArea s)
    (haligned : Aligned (checkedRegs s (.blend .argb8888 df)))
    (hok : BuffersOk s (rectPlan (blendPixels s .argb8888 df))) (hrow : row < height s) (hcol : col < width s)
    (hrow' : row' < height s) (hcol' : col' < width s) (hne : (row, col) ≠ (row', col'))
    (hsame : elem s.dstAddr s.dstStride row col (bpp df) = elem s.dstAddr s.dstStride row' col' (bpp df)) :
    exec (.blend .argb8888 df) s = .fault .hazardOverlap := by
  obtain ⟨m, hexec⟩ := exec_of_planOf (s := s) (i := .blend .argb8888 df) rfl trivial rfl fun _ => harea
  rw [hexec, alignPrologue_of_aligned haligned, afterPrologue_pass]
  exact perform_overlaps hok (overlapping_of_shared_destination hrow hcol hrow' hcol' hne hsame)

theorem decodePlan_kind {s : State} {x : Access} (hx : x ∈ decodePlan s) : x.kind = .write := by
  obtain ⟨j, -, rfl⟩ := List.mem_map.1 hx
  rfl

theorem exec_decodeBlock_overlaps {s : State} {comp : BitVec 2} {d a : Bool} {c : Fin 3} {b : Block} {r : Reader}
    (hc : index3 comp = some c) (ht : TablesValid s (.decodeBlock comp d a)) (heven : s.dstAddr.toNat % 2 = 0)
    (hb : decodeCoeffs s c (dcSlot d) (acSlot a) = .got b r) (hok : BuffersOk s (decodePlan s)) {x w : Access}
    (hx : x ∈ r.seen) (hw : w ∈ decodePlan s) (hmeets : x.meets w = true) :
    exec (.decodeBlock comp d a) s = .fault .hazardOverlap := by
  have hread : x.kind = .read := by
    rw [(decodeCoeffs_got_seen hb).2, byteReads] at hx
    obtain ⟨n, -, rfl⟩ := List.mem_map.1 hx
    rfl
  rw [exec_decodeBlock_body hc ht heven, decodeBody_of_got hb]
  exact perform_overlaps hok
    (overlapping_of_meets (List.mem_append_left _ hx) (List.mem_append_right _ hw) hread (decodePlan_kind hw) hmeets)

/-! ### Memory with side effects -/

theorem exec_plan_sideEffect {s : State} {i : Instr} {before after : List Access} {x : Access}
    (hwf : WellFormed i = true) (ht : TablesValid s i) (hplan : planOf s i = some (before ++ x :: after))
    (harea : rectOf s i ≠ none → HasArea s) (haligned : Aligned (checkedRegs s i)) (hok : BuffersOk s before)
    (hside : respond s.cfg x.addr x.size = .sideEffects) (hd : overlapping before = false) :
    exec i s = .fault .hazardSideEffect := by
  obtain ⟨m, hexec⟩ := exec_of_planOf hwf ht hplan harea
  rw [hexec, alignPrologue_of_aligned haligned, afterPrologue_pass]
  exact (perform_stops (before := []) hok hd).2 hside

theorem readEntropy_of_sideEffects {s : State} {a : Word} {r : Reader} (h : respond s.cfg a 1 = .sideEffects) :
    readEntropy s a r = .stop (.sideEffect a) r.seen := by
  rw [readEntropy, fetch_of_sideEffects h]

theorem fetchByte_of_sideEffects {s : State} {r : Reader} (h : r.addr.toNat < s.bsEnd.toNat)
    (hside : respond s.cfg r.addr 1 = .sideEffects) : fetchByte s r = .stop (.sideEffect r.addr) r.seen := by
  rw [fetchByte, if_neg (Nat.not_le.2 h), readEntropy_of_sideEffects hside, Reading.stop_bind]

theorem fetchByte_of_FF_sideEffects {s : State} {r : Reader} (hbyte : ByteIs s r.addr 0xFF#8)
    (h : r.addr.toNat + 1 < s.bsEnd.toNat) (hside : respond s.cfg (r.addr + 1#32) 1 = .sideEffects) :
    fetchByte s r = .stop (.sideEffect (r.addr + 1#32)) (r.seen ++ byteReads r.addr 1) := by
  rw [fetchByte_of_FF hbyte h, readEntropy_of_sideEffects hside, Reading.stop_bind, r.saw_first]

/-- A segment load stops at the byte it comes to read, if that byte does not answer. -/
theorem exec_of_loadReaches {s : State} {i : Instr} {a : Word} {e : Stop} (h : LoadReaches s i a)
    (he : fetch s a = .error e) : ∃ u, exec i s = stopWith e u := by
  have hlength : i = .loadDqt ∨ i = .loadDht →
      (a = s.srcAddr ∨ (respond s.cfg s.srcAddr 1 = .normal ∧ a = s.srcAddr + 1#32)) → exec i s = stopWith e s := by
    rintro hi (rfl | ⟨hnormal, rfl⟩)
    · exact exec_load_lengthStop (got := []) hi trivial (by decide) (by rwa [List.length_nil, add_zero_word])
    · exact exec_load_lengthStop hi (bytesAre_singleton hnormal) (by decide : 1 < 2) he
  cases i with
  | loadDqt =>
    obtain hfirst | hsecond | ⟨len, ts, hlen, hmore, hseg, hreach⟩ := h
    · exact ⟨s, hlength (.inl rfl) (.inl hfirst)⟩
    · exact ⟨s, hlength (.inl rfl) (.inr hsecond)⟩
    · obtain rfl | ⟨q, got, hid, hgot, hbytes, rfl⟩ := hreach
      · exact ⟨_, exec_loadDqt_idStop hlen hmore hseg he⟩
      · exact ⟨_, exec_loadDqt_entryStop hlen hmore hseg hid hgot hbytes he⟩
  | loadDht =>
    obtain hfirst | hsecond | ⟨len, es, hlen, hmore, hseg, hreach⟩ := h
    · exact ⟨s, hlength (.inr rfl) (.inl hfirst)⟩
    · exact ⟨s, hlength (.inr rfl) (.inr hsecond)⟩
    · obtain rfl | ⟨h, counts, hid, hcounts, ⟨hlt, rfl⟩ | ⟨h16, htotal, hbuild, hroom, got, hgot, hbytes, rfl⟩⟩ := hreach
      · exact ⟨_, exec_loadDht_idStop hlen hmore hseg he⟩
      · exact ⟨_, exec_loadDht_countStop hlen hmore hseg hid hcounts hlt he⟩
      · have hlegal : ¬(256 < totalOf counts ∨ (build counts).2 = false) := by simp [htotal, hbuild]
        have hcode := (countsError_of_legal (len - 2 - huffSize es) hlegal).trans (if_neg (by omega))
        exact ⟨_, exec_loadDht_symbolStop hlen hmore hseg hid hcounts h16 hcode hgot hbytes he⟩
  | nop | resetDc | restart | decodeBlock | idct | upsample | ycc2rgb | cvt565To8888 | cvt8888To565 | blend => exact h.elim

/-- Settles O22: the two hazards of each kind of command. -/
theorem readingAByteItWritesFaults : Obligations.ReadingAByteItWritesFaults := by
  refine ⟨?_, ?_, ?_, ?_, fun s comp d a c hc ht heven => ⟨fun b r before after x hb hplan hok hside hd => ?_,
      fun addr seen hstop => ?_⟩,
    fun s r h => ⟨fetchByte_of_sideEffects h, fetchByte_of_FF_sideEffects⟩, fun s i a hreach hside => ?_,
    fun x y => Access.meets_iff, fun xs => overlapping_iff⟩
  · rintro s i hi hok ⟨r, hr, hread, w, hw, hmeets⟩
    exact exec_of_footprint_overlap hi hok hr hread hw hmeets
  · intro s df row col row' col' harea haligned hok hrow hcol hrow' hcol' hne hsame
    exact exec_blend_sharedDestination harea haligned hok hrow hcol hrow' hcol' hne hsame
  · rintro s comp d a c b r hc ht heven hb hok ⟨x, hx, w, hw, hmeets⟩
    exact exec_decodeBlock_overlaps hc ht heven hb hok hx hw hmeets
  · rintro s i plan before after x hwf ht hplan harea haligned rfl hok hside hd
    exact exec_plan_sideEffect hwf ht hplan harea haligned hok hside hd
  · rw [exec_decodeBlock_body hc ht heven, decodeBody_of_got hb, hplan]
    exact (perform_stops hok hd).2 hside
  · rw [exec_decodeBlock_body hc ht heven, decodeBody_of_stop hstop]
    rfl
  · obtain ⟨u, hexec⟩ := exec_of_loadReaches hreach (fetch_of_sideEffects hside)
    exact hexec

end Sys2Proof.Machine
end

section
/-! PROOF. Host accesses to system memory, memory byte by byte, and the footprints of the commands whose accesses do not
depend on a segment (20_memory R82, R98, R108, 70_reset R382, R385). -/

namespace Sys2Proof.Machine

open Sys2Proof.Claims

/-! ### Memory byte by byte -/

theorem Memory.load_one (m : Memory) (a : Word) : Memory.load m 1 a = (Memory.readByte m a.toNat).toNat := by
  simp [Memory.load]

theorem Memory.load_two (m : Memory) (a : Word) : Memory.load m 2 a =
    (Memory.readByte m a.toNat).toNat + 256 * (Memory.readByte m (a + 1#32).toNat).toNat := by
  rw [Memory.load, Memory.load_one]

theorem Memory.load_four (m : Memory) (a : Word) : Memory.load m 4 a =
    (Memory.readByte m a.toNat).toNat + 256 * ((Memory.readByte m (a + 1#32).toNat).toNat +
      256 * ((Memory.readByte m (a + 2#32).toNat).toNat + 256 * (Memory.readByte m (a + 3#32).toNat).toNat)) := by
  have h2 : a + 1#32 + 1#32 = a + 2#32 := by bv_omega
  have h3 : a + 2#32 + 1#32 = a + 3#32 := by bv_omega
  rw [Memory.load, Memory.load, Memory.load_two, h2, h3]

/-- A store leaves byte `i` of the value, from the low end, at the address `i` past its own. -/
theorem Memory.readByte_store_byte {m : Memory} {n i : Nat} (a : Word) (v : Nat) (hm : Memory.wf m = true)
    (hn : n ≤ 2 ^ 32) (hi : i < n) :
    Memory.readByte (Memory.store m n a v) (a + BitVec.ofNat 32 i).toNat = BitVec.ofNat 8 (v / 2 ^ (8 * i)) := by
  induction n generalizing m a v i with
  | zero => exact absurd hi (Nat.not_lt_zero i)
  | succ n ih =>
    cases i with
    | zero =>
      have hself : a ∉ bytesFrom (a + 1#32) n := by
        rw [mem_bytesFrom_iff]
        bv_omega
      rw [add_zero_word, Memory.store, Memory.readByte_store_of_not_mem _ hself, Memory.readByte_writeByte_same _ hm,
        Nat.mul_zero, Nat.pow_zero, Nat.div_one]
    | succ i =>
      have hpow : 2 ^ (8 * (i + 1)) = 256 * 2 ^ (8 * i) := by rw [Nat.mul_succ, Nat.pow_add, Nat.mul_comm]
      rw [add_ofNat_succ, Memory.store, ih _ _ (Memory.wf_writeByte a _ hm) (Nat.le_of_succ_le hn) (Nat.lt_of_succ_lt_succ hi),
        Nat.div_div_eq_div_mul, hpow]

/-! ### The host's accesses -/

theorem hits_iff_touches {a : Word} {n : Nat} {xs : List Access} :
    hits a n xs = true ↔ ∃ b ∈ bytesFrom a n, Touches xs b := hits_iff

section
variable {s : State} {a : Word} {n : Nat} (hout : ∀ b ∈ bytesFrom a n, 0x1000 ≤ (b - s.cfg.engineBase).toNat)
include hout

theorem touchesWindow_of_outside : ¬touchesWindow s a n = true := by
  rw [touchesWindow_iff]
  rintro ⟨b, hb, hin⟩
  exact absurd (hout b hb) (Nat.not_le.2 hin)

theorem hostWrite_outside (v : Nat) : hostWrite s a n v =
    if s.busy && (hits a n (pendingFootprint s).reads || hits a n (pendingFootprint s).writes) then
      .fault .hazardHostAccess
    else .next (s.setMem (Memory.store s.mem n a v)) := if_neg (touchesWindow_of_outside hout)

theorem hostRead_outside : hostRead s a n =
    if s.busy && hits a n (pendingFootprint s).writes then .fault .hazardHostAccess
    else .next { s with hostData := Memory.load s.mem n a } := if_neg (touchesWindow_of_outside hout)

end

/-! ### Prologues that pass -/

theorem misaligned_eq_none_iff {regs : List (Word × Nat)} : misaligned regs = none ↔ Aligned regs := by
  induction regs with
  | nil => simp [misaligned, Aligned]
  | cons r regs ih =>
    rw [misaligned, Aligned, List.forall_mem_cons, ← Aligned, ← ih]
    by_cases h : r.1.toNat % r.2 = 0 <;> simp [h]

theorem alignPrologue_eq_pass_iff {regs : List (Word × Nat)} : alignPrologue regs = .pass ↔ Aligned regs := by
  rw [← misaligned_eq_none_iff, alignPrologue]
  cases misaligned regs <;> simp

theorem rectPrologue_eq_pass_iff {s : State} {regs : List (Word × Nat)} :
    rectPrologue s regs = .pass ↔ HasArea s ∧ Aligned regs := by
  by_cases harea : HasArea s
  · rw [rectPrologue_of_area harea, alignPrologue_eq_pass_iff]
    exact (and_iff_right harea).symm
  · rw [rectPrologue_zeroArea regs (by simpa [HasArea, or_iff_not_imp_left] using harea)]
    simp [harea]

theorem idctPrologue_eq_pass_iff {s : State} {q : BitVec 2} {k : Fin 3} {lshift raw : Bool} (hq : index3 q = some k) :
    idctPrologue s k raw = .pass ↔
      TablesValid s (.idct q lshift raw) ∧ Aligned (checkedRegs s (.idct q lshift raw)) := by
  by_cases ht : TablesValid s (.idct q lshift raw)
  · rw [idctPrologue_of_valid hq ht, alignPrologue_eq_pass_iff]
    exact (and_iff_right ht).symm
  · have hmissing : raw = false ∧ s.qv.get k = false := by simpa [TablesValid, hq] using ht
    rw [idctPrologue, if_pos hmissing]
    simp [ht]

theorem decodePrologue_eq_pass_iff {s : State} {comp : BitVec 2} {d a : Bool} :
    decodePrologue s (dcSlot d) (acSlot a) = .pass ↔
      TablesValid s (.decodeBlock comp d a) ∧ Aligned (checkedRegs s (.decodeBlock comp d a)) := by
  by_cases ht : TablesValid s (.decodeBlock comp d a)
  · rw [decodePrologue_of_valid ht, alignPrologue_eq_pass_iff]
    exact (and_iff_right ht).symm
  · have hmissing : s.hv.get (dcSlot d) = false ∨ s.hv.get (acSlot a) = false := by
      simpa [TablesValid, or_iff_not_imp_left] using ht
    rw [decodePrologue, if_pos hmissing]
    simp [ht]

theorem upsamplePrologue_eq_pass_iff {s : State} {hr vr : BitVec 2} : upsamplePrologue s hr vr = .pass ↔
    WellFormed (.upsample hr vr) = true ∧ HasArea s ∧ Aligned (checkedRegs s (.upsample hr vr)) := by
  by_cases hwf : WellFormed (.upsample hr vr) = true
  · rw [upsamplePrologue_legal s hwf, rectPrologue_eq_pass_iff]
    exact (and_iff_right hwf).symm
  · have hillegal : ∀ hr vr : BitVec 2, ¬WellFormed (.upsample hr vr) = true →
        (hr = 3#2 ∨ vr = 3#2) ∨ (hr = 0#2 ∨ vr = 0#2) := by decide
    refine iff_of_false ?_ fun ⟨h, _⟩ => hwf h
    obtain hthree | hzero := hillegal hr vr hwf
    · simp [upsamplePrologue, hthree]
    · by_cases hthree : hr = 3#2 ∨ vr = 3#2 <;> simp [upsamplePrologue, hthree, hzero]

/-! ### Footprints -/

theorem index3_eq_none_iff {f : BitVec 2} : index3 f = none ↔ legalIndex f = false := by
  revert f
  decide

theorem legalIndex_of_index3 {f : BitVec 2} {k : Fin 3} (h : index3 f = some k) : legalIndex f = true := by
  rw [← Bool.not_eq_false, ← index3_eq_none_iff, h]
  exact Option.some_ne_none k

/-- A command with a fixed list of accesses has them as its footprint exactly where its prologue passes. -/
theorem footprint_of_planOf {s : State} {i : Instr} {plan : List Access} (h : planOf s i = some plan) :
    ∃ p, footprint i s = planFootprint p plan ∧ (p = .pass ↔ ProloguePasses s i) := by
  have hrect : ∀ p : Prologue, (p = .pass ↔ WellFormed i = true ∧ HasArea s ∧ Aligned (checkedRegs s i)) →
      rectOf s i ≠ none → TablesValid s i → (p = .pass ↔ ProloguePasses s i) := by
    intro p hp hrect ht
    rw [hp, ProloguePasses]
    exact ⟨fun ⟨hwf, harea, hal⟩ => ⟨hwf, ht, fun _ => harea, hal⟩,
      fun ⟨hwf, _, harea, hal⟩ => ⟨hwf, harea hrect, hal⟩⟩
  cases i with
  | idct q lshift raw =>
    cases h
    rw [footprint]
    cases hq : index3 q with
    | none =>
      have hillegal : WellFormed (.idct q lshift raw) = false := index3_eq_none_iff.1 hq
      exact ⟨.error .illegal 0#32, rfl, by simp [ProloguePasses, hillegal]⟩
    | some k =>
      have hwf : WellFormed (.idct q lshift raw) = true := legalIndex_of_index3 hq
      refine ⟨_, rfl, idctPrologue_eq_pass_iff hq |>.trans ⟨fun ⟨ht, hal⟩ => ⟨hwf, ht, nofun, hal⟩, ?_⟩⟩
      exact fun ⟨_, ht, _, hal⟩ => ⟨ht, hal⟩
  | upsample hr vr => cases h; exact ⟨_, rfl, hrect _ upsamplePrologue_eq_pass_iff nofun trivial⟩
  | ycc2rgb gray =>
    cases h
    refine ⟨_, rfl, hrect _ ?_ nofun trivial⟩
    rw [yccRegs_eq_checkedRegs, rectPrologue_eq_pass_iff]
    exact (and_iff_right rfl).symm
  | cvt565To8888 | cvt8888To565 | blend =>
    cases h
    exact ⟨_, rfl, hrect _ (rectPrologue_eq_pass_iff.trans (and_iff_right rfl).symm) nofun trivial⟩
  | nop | resetDc | restart | loadDqt | loadDht | decodeBlock => cases h

/-- DECODE_BLOCK has the bytes it reads and its 64 writes as its footprint exactly where its prologue passes. -/
theorem footprint_decodeBlock {s : State} {comp : BitVec 2} {d a : Bool} {c : Fin 3} (hc : index3 comp = some c) :
    ∃ p, footprint (.decodeBlock comp d a) s =
        planFootprint p (decodeReads s c (dcSlot d) (acSlot a) ++ decodePlan s) ∧
      (p = .pass ↔ ProloguePasses s (.decodeBlock comp d a)) := by
  have hwf : WellFormed (.decodeBlock comp d a) = true := legalIndex_of_index3 hc
  rw [footprint, hc]
  refine ⟨_, rfl, (decodePrologue_eq_pass_iff (comp := comp)).trans ⟨fun ⟨ht, hal⟩ => ⟨hwf, ht, nofun, hal⟩, ?_⟩⟩
  exact fun ⟨_, ht, _, hal⟩ => ⟨ht, hal⟩

theorem decodeReads_seen (s : State) (c : Fin 3) (dc ac : Fin 4) :
    (∀ b r, decodeCoeffs s c dc ac = .got b r → decodeReads s c dc ac = r.seen) ∧
      ∀ e seen, decodeCoeffs s c dc ac = .stop e seen → decodeReads s c dc ac = seen := by
  constructor <;> intro _ _ h <;> rw [decodeReads, h]

theorem decodeReads_kind {s : State} {c : Fin 3} {dc ac : Fin 4} {x : Access} (hx : x ∈ decodeReads s c dc ac) :
    x.kind = .read := by
  have hbytes : ∃ n, decodeReads s c dc ac = byteReads s.bsAddr n := by
    cases h : decodeCoeffs s c dc ac with
    | got b r => exact ⟨_, ((decodeReads_seen s c dc ac).1 b r h).trans (decodeCoeffs_got_seen h).2⟩
    | stop e seen => exact ⟨_, ((decodeReads_seen s c dc ac).2 e seen h).trans (decodeCoeffs_stop_seen h)⟩
  obtain ⟨n, hn⟩ := hbytes
  rw [hn, byteReads] at hx
  obtain ⟨j, -, rfl⟩ := List.mem_map.1 hx
  rfl

theorem planFootprint_pass (plan : List Access) : planFootprint .pass plan =
    ⟨plan.filter fun x => x.kind ≠ .write, plan.filter fun x => x.kind = .write⟩ := by
  have hwrite : Access.isWrite = fun x => decide (x.kind = .write) := funext fun x => by
    rw [Bool.eq_iff_iff, Access.isWrite_iff, decide_eq_true_iff]
  simp only [planFootprint, hwrite, decide_not]

/-- Of reads and then writes, the reads are the read set and the writes the write set. -/
theorem planFootprint_pass_append {xs ys : List Access} (hxs : ∀ x ∈ xs, x.kind = .read) (hys : ∀ x ∈ ys, x.kind = .write) :
    planFootprint .pass (xs ++ ys) = ⟨xs, ys⟩ := by
  have hread : xs.filter (fun x => x.kind ≠ .write) = xs := List.filter_eq_self.2 fun x hx => by simp [hxs x hx]
  have hread' : ys.filter (fun x => x.kind ≠ .write) = [] := List.filter_eq_nil_iff.2 fun x hx => by simp [hys x hx]
  have hwrite : xs.filter (fun x => x.kind = .write) = [] := List.filter_eq_nil_iff.2 fun x hx => by simp [hxs x hx]
  have hwrite' : ys.filter (fun x => x.kind = .write) = ys := List.filter_eq_self.2 fun x hx => by simp [hys x hx]
  rw [planFootprint_pass, List.filter_append, List.filter_append, hread, hread', hwrite, hwrite', List.append_nil,
    List.nil_append]

end Sys2Proof.Machine
end

section
/-! PROOF. The bytes a segment load reads: exactly those it comes to and that answer (41_tables R162, R170). -/

namespace Sys2Proof.Machine

open Sys2Proof.Claims

/-! ### Reading up to some byte -/

/-- Of the bytes that are reached, those that answer are the first `k` from `p`. -/
def ReadsExactly (s : State) (reach : Word → Prop) (p : Word) (k : Nat) : Prop :=
  ∀ a, reach a ∧ respond s.cfg a 1 = .normal ↔ a ∈ bytesFrom p k

section
variable {s : State} {reach reach' : Word → Prop} {p : Word} {k j : Nat}

theorem ReadsExactly.congr (h : ReadsExactly s reach p k) (he : ∀ a, reach' a ↔ reach a) :
    ReadsExactly s reach' p k := fun a => by rw [he, h a]

theorem ReadsExactly.of_none (h : ∀ a, ¬reach a) : ReadsExactly s reach p 0 :=
  fun a => iff_of_false (fun hr => h a hr.1) List.not_mem_nil

/-- What is reached is in a first part, or in a second that starts where the first ends. -/
theorem ReadsExactly.or (h : ReadsExactly s reach p k) (h' : ReadsExactly s reach' (p + BitVec.ofNat 32 k) j) :
    ReadsExactly s (fun a => reach a ∨ reach' a) p (k + j) := fun a => by
  rw [bytesFrom_add, List.mem_append, ← h a, ← h' a, or_and_right]

theorem readsExactly_self (h : respond s.cfg p 1 = .normal) : ReadsExactly s (· = p) p 1 := fun a => by
  simp only [bytesFrom, List.mem_singleton, and_iff_left_iff_imp]
  rintro rfl
  exact h

theorem readsExactly_self_stop {e : Stop} (h : fetch s p = .error e) : ReadsExactly s (· = p) p 0 := fun a => by
  refine iff_of_false ?_ List.not_mem_nil
  rintro ⟨rfl, hnormal⟩
  simp [fetch_of_normal hnormal] at h

end

theorem byteIs_of_fetch {s : State} {a : Word} {b : Byte} (h : fetch s a = .ok b) : ByteIs s a b := by
  unfold fetch at h
  split at h
  · exact ⟨‹_›, Except.ok.inj h⟩
  · cases h
  · cases h

theorem not_byteIs_of_stop {s : State} {a : Word} {e : Stop} (h : fetch s a = .error e) (b : Byte) : ¬ByteIs s a b :=
  fun hb => by simp [fetch_of_byteIs hb] at h

theorem touchedAt_of_stop {s : State} {a : Word} {e : Stop} (h : fetch s a = .error e) (start upto : Word) :
    touchedAt start upto e = (a - start).toNat := by
  unfold fetch at h
  split at h <;> cases h <;> rfl

/-! ### A run of bytes -/

/-- Of the run of `n` bytes from `b`, the byte at `a` is reached: those before it answer. -/
def RunReaches (s : State) (b : Word) (n : Nat) (a : Word) : Prop :=
  ∃ got : List Byte, got.length < n ∧ BytesAre s b got ∧ a = b + BitVec.ofNat 32 got.length

theorem runReaches_succ {s : State} {b a : Word} {n : Nat} :
    RunReaches s b (n + 1) a ↔ a = b ∨ ∃ x, ByteIs s b x ∧ RunReaches s (b + 1#32) n a := by
  constructor
  · rintro ⟨got, hlt, hgot, rfl⟩
    cases got with
    | nil => exact .inl (add_zero_word b)
    | cons x got =>
      exact .inr ⟨x, hgot.1, got, Nat.lt_of_succ_lt_succ hlt, hgot.2, add_ofNat_succ b got.length⟩
  · rintro (rfl | ⟨x, hx, got, hlt, hgot, rfl⟩)
    · exact ⟨[], Nat.zero_lt_succ n, trivial, (add_zero_word a).symm⟩
    · exact ⟨x :: got, Nat.succ_lt_succ hlt, ⟨hx, hgot⟩, (add_ofNat_succ b got.length).symm⟩

theorem runReaches_succ_of_byteIs {s : State} {b a : Word} {n : Nat} {x : Byte} (hx : ByteIs s b x) :
    RunReaches s b (n + 1) a ↔ a = b ∨ RunReaches s (b + 1#32) n a := by
  rw [runReaches_succ]
  exact or_congr_right ⟨fun ⟨_, _, h⟩ => h, fun h => ⟨x, hx, h⟩⟩

theorem fetchBytes_eq_ok_iff {s : State} {n : Nat} {b : Word} {bs : List Byte} :
    fetchBytes s n b = .ok bs ↔ bs.length = n ∧ BytesAre s b bs := by
  refine ⟨fun h => ?_, fun ⟨hlen, hbs⟩ => hlen ▸ fetchBytes_of_bytesAre hbs⟩
  induction n generalizing b bs with
  | zero => cases h; exact ⟨rfl, trivial⟩
  | succ n ih =>
    rw [fetchBytes] at h
    cases hx : fetch s b with
    | error e => simp [hx] at h
    | ok x =>
      cases hrest : fetchBytes s n (b + 1#32) with
      | error e => simp [hx, hrest] at h
      | ok rest =>
        simp only [hx, hrest, Except.ok.injEq] at h
        subst h
        obtain ⟨hlen, hrest⟩ := ih hrest
        exact ⟨congrArg (· + 1) hlen, byteIs_of_fetch hx, hrest⟩

/-- A run that answers is read whole. -/
theorem readsExactly_run {s : State} {n : Nat} {b : Word} {bs : List Byte} (h : fetchBytes s n b = .ok bs) :
    ReadsExactly s (RunReaches s b n) b n := by
  obtain ⟨rfl, hbs⟩ := fetchBytes_eq_ok_iff.1 h
  clear h
  induction bs generalizing b with
  | nil => exact .of_none fun a ⟨_, hlt, _⟩ => absurd hlt (Nat.not_lt_zero _)
  | cons x bs ih =>
    obtain ⟨hx, hbs⟩ := hbs
    rw [List.length_cons, Nat.add_comm]
    refine ((readsExactly_self hx.1).or (ih hbs)).congr fun a => ?_
    rw [Nat.add_comm]
    exact runReaches_succ_of_byteIs hx

/-- A run that stops is read up to the byte that does not answer. -/
theorem readsExactly_run_stop {s : State} {n : Nat} {b : Word} {e : Stop} (h : fetchBytes s n b = .error e) :
    ∃ m < n, fetch s (b + BitVec.ofNat 32 m) = .error e ∧ ReadsExactly s (RunReaches s b n) b m := by
  induction n generalizing b with
  | zero => cases h
  | succ n ih =>
    rw [fetchBytes] at h
    cases hx : fetch s b with
    | error e' =>
      simp only [hx, Except.error.injEq] at h
      subst h
      refine ⟨0, Nat.zero_lt_succ n, by rwa [add_zero_word], (readsExactly_self_stop hx).congr fun a => ?_⟩
      rw [runReaches_succ]
      exact or_iff_left fun ⟨x, hbyte, _⟩ => not_byteIs_of_stop hx x hbyte
    | ok x =>
      cases hrest : fetchBytes s n (b + 1#32) with
      | ok rest => simp [hx, hrest] at h
      | error e' =>
        simp only [hx, hrest, Except.error.injEq] at h
        subst h
        obtain ⟨m, hm, hstop, hreads⟩ := ih hrest
        have hbyte := byteIs_of_fetch hx
        refine ⟨m + 1, Nat.succ_lt_succ hm, by rwa [add_ofNat_succ], ?_⟩
        rw [Nat.add_comm m 1]
        exact ((readsExactly_self hbyte.1).or hreads).congr fun a => runReaches_succ_of_byteIs hbyte

/-! ### The loop over the tables -/

/-- The byte at `a` is reached by a loop with `rem` bytes left at `p`: in this round, or behind it in a later one. The
round's own bytes, and the sizes of the tables that let the loop go on, are `round` and `next`. -/
inductive LoopReaches (round : Word → Nat → Word → Prop) (next : Word → Nat → Nat → Prop) : Word → Nat → Word → Prop
  | here {p : Word} {rem : Nat} {a : Word} (h : round p rem a) : LoopReaches round next p rem a
  | later {p : Word} {rem size : Nat} {a : Word} (h : next p rem size)
      (hr : LoopReaches round next (p + BitVec.ofNat 32 size) (rem - size) a) : LoopReaches round next p rem a

section
variable {s : State} {round : Word → Nat → Word → Prop} {next : Word → Nat → Nat → Prop} {p : Word} {rem k j : Nat}

/-- A round that commits no table is the loop's last. -/
theorem ReadsExactly.lastRound (h : ReadsExactly s (round p rem) p k) (hnext : ∀ size, ¬next p rem size) :
    ReadsExactly s (LoopReaches round next p rem) p k := h.congr fun a => by
  refine ⟨fun hr => ?_, .here⟩
  cases hr with
  | here hr => exact hr
  | later hsize _ => exact absurd hsize (hnext _)

/-- Behind a round that commits a table stand the later rounds. -/
theorem ReadsExactly.nextRound (h : ReadsExactly s (round p rem) p k) (hnext : ∀ size, next p rem size ↔ size = k)
    (hrest : ReadsExactly s (LoopReaches round next (p + BitVec.ofNat 32 k) (rem - k)) (p + BitVec.ofNat 32 k) j) :
    ReadsExactly s (LoopReaches round next p rem) p (k + j) := (h.or hrest).congr fun a => by
  refine ⟨fun hr => ?_, fun hr => hr.elim .here (.later ((hnext k).2 rfl))⟩
  cases hr with
  | here hr => exact .inl hr
  | later hsize hr =>
    obtain rfl := (hnext _).1 hsize
    exact .inr hr

end

/-- How a loop that starts with `rem` bytes left at `p` ends: it has read the bytes it reaches, all of them where it does
not stop. -/
structure LoopEnds (s : State) (start : Word) (reach : Word → Prop) (p : Word) (rem : Nat) (e : LoadEnd) (k : Nat) :
    Prop where
  touched : e.touched = (p - start).toNat + k
  reads : ReadsExactly s reach p k
  whole : e.stop = none → k = rem

theorem add_ofNat_add (p : Word) (m n : Nat) :
    p + BitVec.ofNat 32 m + BitVec.ofNat 32 n = p + BitVec.ofNat 32 (m + n) := by
  rw [BitVec.add_assoc, ← BitVec.ofNat_add]

theorem offset_add {p start : Word} {k : Nat} (h : (p - start).toNat + k < 2 ^ 32) :
    (p + BitVec.ofNat 32 k - start).toNat = (p - start).toNat + k := by
  bv_omega

/-! ### LOAD_DQT -/

/-- The bytes of a round of LOAD_DQT: the id byte, and behind a legal one the entries (41_tables R160). -/
def QuantRound (s : State) (p : Word) (rem : Nat) (a : Word) : Prop :=
  65 ≤ rem ∧ (a = p ∨ ∃ q : Fin 3, ByteIs s p (BitVec.ofNat 8 q.val) ∧ RunReaches s (p + 1#32) 64 a)

/-- The size of a whole table at `p`. -/
def QuantNext (s : State) (p : Word) (rem size : Nat) : Prop :=
  65 ≤ rem ∧ size = 65 ∧ ∃ (q : Fin 3) (t : QuantTable), ByteIs s p (BitVec.ofNat 8 q.val) ∧ BytesAre s (p + 1#32) t.toList

theorem quantSlot_eq_some {b : Byte} {q : Fin 3} (h : quantSlot b = some q) : b = BitVec.ofNat 8 q.val := by
  unfold quantSlot at h
  split at h
  · cases h; assumption
  split at h
  · cases h; assumption
  split at h
  · cases h; assumption
  · cases h

theorem byteIs_inj {s : State} {a : Word} {b b' : Byte} (h : ByteIs s a b) (h' : ByteIs s a b') : b = b' :=
  h.2.symm.trans h'.2

theorem not_legal_of_quantSlot {s : State} {p : Word} {b : Byte} (hid : ByteIs s p b) (hb : quantSlot b = none)
    (q : Fin 3) : ¬ByteIs s p (BitVec.ofNat 8 q.val) := fun hq => by
  rw [byteIs_inj hid hq, quantSlot_id] at hb
  cases hb

/-- What a round of LOAD_DQT reads where its id byte is legal. -/
theorem quantRound_of_id {s : State} {p : Word} {rem : Nat} {q : Fin 3} (hrem : 65 ≤ rem)
    (hid : ByteIs s p (BitVec.ofNat 8 q.val)) (a : Word) :
    QuantRound s p rem a ↔ a = p ∨ RunReaches s (p + 1#32) 64 a :=
  ⟨fun ⟨_, h⟩ => h.imp_right fun ⟨_, _, hr⟩ => hr, fun h => ⟨hrem, h.imp_right fun hr => ⟨q, hid, hr⟩⟩⟩

/-- What it reads where its id byte does not answer or is illegal. -/
theorem quantRound_of_no_id {s : State} {p : Word} {rem : Nat} (hrem : 65 ≤ rem)
    (hid : ∀ q : Fin 3, ¬ByteIs s p (BitVec.ofNat 8 q.val)) (a : Word) : QuantRound s p rem a ↔ a = p :=
  ⟨fun ⟨_, h⟩ => h.resolve_right fun ⟨q, hq, _⟩ => hid q hq, fun h => ⟨hrem, .inl h⟩⟩

/-- Fewer than 65 bytes end the loop. -/
theorem quantTables_ends_short {s u : State} {start p : Word} {fuel rem : Nat} (n : Nat) (hfuel : rem ≤ fuel)
    (hrem : rem < 65) : LoopEnds s start (LoopReaches (QuantRound s) (QuantNext s) p rem) p rem
      (quantTables start fuel rem p n u) 0 := by
  have hreads : ReadsExactly s (LoopReaches (QuantRound s) (QuantNext s) p rem) p 0 :=
    .lastRound (.of_none fun _ h => absurd h.1 (Nat.not_le.2 hrem)) fun _ h => absurd h.1 (Nat.not_le.2 hrem)
  obtain rfl | hpos := Nat.eq_zero_or_pos rem
  · rw [quantTables_end rfl]
    exact ⟨rfl, hreads, fun _ => rfl⟩
  · rw [quantTables_short hfuel hpos hrem]
    exact ⟨rfl, hreads, nofun⟩

/-- Each round of LOAD_DQT reads its bytes up to its stop, or all of them and goes on. -/
theorem quantTables_ends {s u : State} (hu : SameBytes s u) {start p : Word} {fuel rem : Nat} (n : Nat)
    (hfuel : rem ≤ fuel) (hwrap : (p - start).toNat + rem < 2 ^ 32) :
    ∃ k, LoopEnds s start (LoopReaches (QuantRound s) (QuantNext s) p rem) p rem (quantTables start fuel rem p n u) k := by
  induction fuel generalizing rem p n u with
  | zero => exact ⟨0, quantTables_ends_short n hfuel (by omega)⟩
  | succ fuel ih =>
    obtain hrem | hrem := Nat.lt_or_ge rem 65
    · exact ⟨0, quantTables_ends_short n hfuel hrem⟩
    cases hid : fetch s p with
    | error e =>
      have hnone := not_byteIs_of_stop hid
      rw [quantTables_idStop hfuel hrem ((hu.fetch p).trans hid)]
      exact ⟨0, touchedAt_of_stop hid _ _, .lastRound ((readsExactly_self_stop hid).congr
        (quantRound_of_no_id hrem fun q => hnone _)) fun _ ⟨_, _, q, _, hq, _⟩ => hnone _ hq, nofun⟩
    | ok b =>
      have hid' := (hu.fetch p).trans hid
      have hbyte := byteIs_of_fetch hid
      cases hb : quantSlot b with
      | none =>
        have hnone := not_legal_of_quantSlot hbyte hb
        rw [quantTables_badId hfuel hrem hid' hb]
        exact ⟨1, offset_add (by omega), .lastRound ((readsExactly_self hbyte.1).congr
          (quantRound_of_no_id hrem hnone)) fun _ ⟨_, _, q, _, hq, _⟩ => hnone q hq, nofun⟩
      | some q =>
        obtain rfl := quantSlot_eq_some hb
        cases hentries : fetchBytes s 64 (p + 1#32) with
        | error e =>
          obtain ⟨m, hm, hstop, hreads⟩ := readsExactly_run_stop hentries
          have hround := ((readsExactly_self hbyte.1).or hreads).congr (quantRound_of_id hrem hbyte)
          rw [quantTables_entryStop hfuel hrem hid' hb ((hu.fetchBytes 64 _).trans hentries)]
          refine ⟨1 + m, ?_, hround.lastRound fun _ ⟨_, _, _, t, _, ht⟩ => ?_, nofun⟩
          · rw [← offset_add (by omega), Nat.add_comm, add_ofNat_succ]
            exact touchedAt_of_stop hstop _ _
          · simp [fetchBytes_eq_ok_iff.2 ⟨t.length_toList, ht⟩] at hentries
        | ok bs =>
          obtain ⟨hlen, hbs⟩ := fetchBytes_eq_ok_iff.1 hentries
          have hround := ((readsExactly_self hbyte.1).or (readsExactly_run hentries)).congr (quantRound_of_id hrem hbyte)
          obtain ⟨k, htouched, hreads, hwhole⟩ := ih (u := u.setQuant q (quantOf bs)) (p := p + 65#32) (rem := rem - 65)
            ⟨hu.cfg, hu.mem⟩ (n + 1) (by omega) (by bv_omega)
          rw [quantTables_commit hfuel hrem hid' hb ((hu.fetchBytes 64 _).trans hentries)]
          refine ⟨65 + k, ?_, hround.nextRound (fun size => ⟨fun h => h.2.1, fun h => ?_⟩) hreads, fun hstop => ?_⟩
          · rw [Nat.add_sub_cancel, htouched, offset_add (k := 65) (by omega), Nat.add_assoc]
          · exact ⟨hrem, h, q, ⟨bs.toArray, hlen⟩, hbyte, hbs⟩
          · have := hwhole hstop
            omega

/-- The bytes the loop reaches: in the round behind some whole tables. -/
theorem loopReaches_quant_iff {s : State} {p a : Word} {rem : Nat} :
    LoopReaches (QuantRound s) (QuantNext s) p rem a ↔ ∃ ts : List (Fin 3 × QuantTable), 65 * ts.length ≤ rem ∧
      QuantSegment s p ts ∧ QuantRound s (p + BitVec.ofNat 32 (65 * ts.length)) (rem - 65 * ts.length) a := by
  have hsize : ∀ (p : Word) (n : Nat), p + 65#32 + BitVec.ofNat 32 (65 * n) = p + BitVec.ofNat 32 (65 * (n + 1)) :=
    fun p n => by bv_omega
  constructor
  · intro h
    induction h with
    | @here p rem a h => exact ⟨[], Nat.zero_le rem, trivial, by simpa using h⟩
    | @later p rem size a hnext _ ih =>
      obtain ⟨hrem, rfl, q, t, hid, ht⟩ := hnext
      obtain ⟨ts, hle, hts, hround⟩ := ih
      refine ⟨(q, t) :: ts, by rw [List.length_cons]; omega, ⟨hid, ht, hts⟩, ?_⟩
      rwa [List.length_cons, ← hsize, Nat.mul_succ, Nat.add_comm, ← Nat.sub_sub]
  · rintro ⟨ts, hle, hts, hround⟩
    induction ts generalizing p rem with
    | nil => exact .here (by simpa using hround)
    | cons x ts ih =>
      obtain ⟨hid, ht, hts⟩ := hts
      rw [List.length_cons] at hle hround
      refine .later (size := 65) ⟨by omega, rfl, x.1, x.2, hid, ht⟩ (ih (by omega) hts ?_)
      rwa [← hsize, Nat.mul_succ, Nat.add_comm, ← Nat.sub_sub] at hround

/-! ### LOAD_DHT -/

/-- What a round of LOAD_DHT reads behind its id byte: the counts, and behind legal ones the symbols (41_tables R165). -/
def HuffRest (s : State) (p : Word) (rem : Nat) (a : Word) : Prop :=
  RunReaches s (p + 1#32) 16 a ∨ ∃ counts : List Byte, counts.length = 16 ∧ BytesAre s (p + 1#32) counts ∧
    countsError rem counts = none ∧ RunReaches s (p + 17#32) (totalOf counts) a

/-- The bytes of a round of LOAD_DHT. -/
def HuffRound (s : State) (p : Word) (rem : Nat) (a : Word) : Prop :=
  17 ≤ rem ∧ (a = p ∨ ∃ h : Fin 4, ByteIs s p (huffId h) ∧ HuffRest s p rem a)

/-- The size of a whole legal table at `p`. -/
def HuffNext (s : State) (p : Word) (rem size : Nat) : Prop :=
  17 ≤ rem ∧ ∃ e : HuffEntry, size = e.size ∧ ByteIs s p (huffId e.slot) ∧ e.counts.length = 16 ∧
    BytesAre s (p + 1#32) e.counts ∧ countsError rem e.counts = none ∧ e.values.length = totalOf e.counts ∧
    BytesAre s (p + 17#32) e.values

theorem huffSlot_eq_some {b : Byte} {h : Fin 4} (hb : huffSlot b = some h) : b = huffId h := by
  unfold huffSlot at hb
  split at hb
  · cases hb; assumption
  split at hb
  · cases hb; assumption
  split at hb
  · cases hb; assumption
  split at hb
  · cases hb; assumption
  · cases hb

theorem not_legal_of_huffSlot {s : State} {p : Word} {b : Byte} (hid : ByteIs s p b) (hb : huffSlot b = none) (h : Fin 4) :
    ¬ByteIs s p (huffId h) := fun hh => by
  rw [byteIs_inj hid hh, huffSlot_huffId] at hb
  cases hb

theorem huffRound_of_id {s : State} {p : Word} {rem : Nat} {h : Fin 4} (hrem : 17 ≤ rem) (hid : ByteIs s p (huffId h))
    (a : Word) : HuffRound s p rem a ↔ a = p ∨ HuffRest s p rem a :=
  ⟨fun ⟨_, h⟩ => h.imp_right fun ⟨_, _, hr⟩ => hr, fun h' => ⟨hrem, h'.imp_right fun hr => ⟨h, hid, hr⟩⟩⟩

theorem huffRound_of_no_id {s : State} {p : Word} {rem : Nat} (hrem : 17 ≤ rem)
    (hid : ∀ h : Fin 4, ¬ByteIs s p (huffId h)) (a : Word) : HuffRound s p rem a ↔ a = p :=
  ⟨fun ⟨_, h⟩ => h.resolve_right fun ⟨h, hh, _⟩ => hid h hh, fun h => ⟨hrem, .inl h⟩⟩

theorem huffRest_of_bad_counts {s : State} {p : Word} {rem : Nat}
    (h : ∀ counts, fetchBytes s 16 (p + 1#32) = .ok counts → countsError rem counts ≠ none) (a : Word) :
    HuffRest s p rem a ↔ RunReaches s (p + 1#32) 16 a :=
  or_iff_left fun ⟨counts, hlen, hbytes, hcode, _⟩ => h counts (fetchBytes_eq_ok_iff.2 ⟨hlen, hbytes⟩) hcode

theorem huffRest_of_counts {s : State} {p : Word} {rem : Nat} {counts : List Byte}
    (h : fetchBytes s 16 (p + 1#32) = .ok counts) (hcode : countsError rem counts = none) (a : Word) :
    HuffRest s p rem a ↔ RunReaches s (p + 1#32) 16 a ∨ RunReaches s (p + 17#32) (totalOf counts) a := by
  refine or_congr_right ⟨fun ⟨counts', hlen, hbytes, _, hr⟩ => ?_, fun hr => ?_⟩
  · obtain rfl := Except.ok.inj (h.symm.trans (fetchBytes_eq_ok_iff.2 ⟨hlen, hbytes⟩))
    exact hr
  · obtain ⟨hlen, hbytes⟩ := fetchBytes_eq_ok_iff.1 h
    exact ⟨counts, hlen, hbytes, hcode, hr⟩

theorem touchedAt_countsError {rem : Nat} {counts : List Byte} {code : ErrCode} (h : countsError rem counts = some code)
    (start upto a : Word) : touchedAt start upto (.error code a) = (upto - start).toNat := by
  unfold countsError at h
  split at h
  · cases h; rfl
  split at h
  · cases h; rfl
  split at h
  · cases h; rfl
  · cases h

/-- Fewer than 17 bytes end the loop. -/
theorem huffTables_ends_short {s u : State} {start p : Word} {fuel rem : Nat} (n : Nat) (hfuel : rem ≤ fuel)
    (hrem : rem < 17) : LoopEnds s start (LoopReaches (HuffRound s) (HuffNext s) p rem) p rem
      (huffTables start fuel rem p n u) 0 := by
  have hreads : ReadsExactly s (LoopReaches (HuffRound s) (HuffNext s) p rem) p 0 :=
    .lastRound (.of_none fun _ h => absurd h.1 (Nat.not_le.2 hrem)) fun _ h => absurd h.1 (Nat.not_le.2 hrem)
  obtain rfl | hpos := Nat.eq_zero_or_pos rem
  · rw [huffTables_end rfl]
    exact ⟨rfl, hreads, fun _ => rfl⟩
  · rw [huffTables_short hfuel hpos hrem]
    exact ⟨rfl, hreads, nofun⟩

/-- Each round of LOAD_DHT reads its bytes up to its stop, or all of them and goes on. -/
theorem huffTables_ends {s u : State} (hu : SameBytes s u) {start p : Word} {fuel rem : Nat} (n : Nat)
    (hfuel : rem ≤ fuel) (hwrap : (p - start).toNat + rem < 2 ^ 32) :
    ∃ k, LoopEnds s start (LoopReaches (HuffRound s) (HuffNext s) p rem) p rem (huffTables start fuel rem p n u) k := by
  induction fuel generalizing rem p n u with
  | zero => exact ⟨0, huffTables_ends_short n hfuel (by omega)⟩
  | succ fuel ih =>
    obtain hrem | hrem := Nat.lt_or_ge rem 17
    · exact ⟨0, huffTables_ends_short n hfuel hrem⟩
    have h17 : p + 1#32 + BitVec.ofNat 32 16 = p + 17#32 := by bv_omega
    cases hid : fetch s p with
    | error e =>
      have hnone := not_byteIs_of_stop hid
      rw [huffTables_idStop hfuel hrem ((hu.fetch p).trans hid)]
      exact ⟨0, touchedAt_of_stop hid _ _, .lastRound ((readsExactly_self_stop hid).congr
        (huffRound_of_no_id hrem fun h => hnone _)) fun _ ⟨_, e, _, he, _⟩ => hnone _ he, nofun⟩
    | ok b =>
      have hid' := (hu.fetch p).trans hid
      have hbyte := byteIs_of_fetch hid
      cases hb : huffSlot b with
      | none =>
        have hnone := not_legal_of_huffSlot hbyte hb
        rw [huffTables_badId hfuel hrem hid' hb]
        exact ⟨1, offset_add (by omega), .lastRound ((readsExactly_self hbyte.1).congr
          (huffRound_of_no_id hrem hnone)) fun _ ⟨_, e, _, he, _⟩ => hnone _ he, nofun⟩
      | some h =>
        obtain rfl := huffSlot_eq_some hb
        have hround := fun {k : Nat} (hrest : ReadsExactly s (HuffRest s p rem) (p + 1#32) k) =>
          ((readsExactly_self hbyte.1).or hrest).congr (huffRound_of_id hrem hbyte)
        cases hcounts : fetchBytes s 16 (p + 1#32) with
        | error e =>
          have hbad : ∀ counts, fetchBytes s 16 (p + 1#32) = .ok counts → countsError rem counts ≠ none := by simp [hcounts]
          obtain ⟨m, hm, hstop, hreads⟩ := readsExactly_run_stop hcounts
          rw [huffTables_countStop hfuel hrem hid' hb ((hu.fetchBytes 16 _).trans hcounts)]
          refine ⟨1 + m, ?_, (hround (hreads.congr (huffRest_of_bad_counts hbad))).lastRound
            fun _ ⟨_, e, _, _, hlen, hbytes, hcode, _⟩ => hbad _ (fetchBytes_eq_ok_iff.2 ⟨hlen, hbytes⟩) hcode, nofun⟩
          rw [← offset_add (by omega), Nat.add_comm, add_ofNat_succ]
          exact touchedAt_of_stop hstop _ _
        | ok counts =>
          have hcounts' := (hu.fetchBytes 16 _).trans hcounts
          have hreads := readsExactly_run hcounts
          cases hcode : countsError rem counts with
          | some code =>
            have hbad : ∀ counts', fetchBytes s 16 (p + 1#32) = .ok counts' → countsError rem counts' ≠ none := by
              simp [hcounts, hcode]
            rw [huffTables_badCounts hfuel hrem hid' hb hcounts' hcode]
            refine ⟨17, ?_, (hround (hreads.congr (huffRest_of_bad_counts hbad))).lastRound
              fun _ ⟨_, e, _, _, hlen, hbytes, hcode, _⟩ => hbad _ (fetchBytes_eq_ok_iff.2 ⟨hlen, hbytes⟩) hcode, nofun⟩
            rw [← offset_add (by omega)]
            exact touchedAt_countsError hcode _ _ _
          | none =>
            obtain ⟨htotal, hbuild, hroom⟩ := countsError_eq_none hcode
            have hsame : ∀ counts', counts'.length = 16 → BytesAre s (p + 1#32) counts' → counts' = counts :=
              fun counts' hlen hbytes => Except.ok.inj ((fetchBytes_eq_ok_iff.2 ⟨hlen, hbytes⟩).symm.trans hcounts)
            cases hsymbols : fetchBytes s (totalOf counts) (p + 17#32) with
            | error e =>
              obtain ⟨m, hm, hstop, hreads'⟩ := readsExactly_run_stop hsymbols
              have hsymbols' : ReadsExactly s (HuffRest s p rem) (p + 1#32) (16 + m) :=
                (hreads.or (h17 ▸ hreads')).congr (huffRest_of_counts hcounts hcode)
              rw [huffTables_symbolStop hfuel hrem hid' hb hcounts' hcode ((hu.fetchBytes _ _).trans hsymbols)]
              refine ⟨1 + (16 + m), ?_, (hround hsymbols').lastRound
                fun _ ⟨_, e, _, _, hlen, hbytes, _, hvalues, hbytes'⟩ => ?_, nofun⟩
              · have hx : p + 17#32 + BitVec.ofNat 32 m = p + BitVec.ofNat 32 (1 + (16 + m)) := by bv_omega
                rw [← offset_add (by omega), ← hx]
                exact touchedAt_of_stop hstop _ _
              · obtain rfl := hsame _ hlen hbytes
                simp [fetchBytes_eq_ok_iff.2 ⟨hvalues, hbytes'⟩] at hsymbols
            | ok values =>
              obtain ⟨hlen, hbytes⟩ := fetchBytes_eq_ok_iff.1 hcounts
              obtain ⟨hvalues, hbytes'⟩ := fetchBytes_eq_ok_iff.1 hsymbols
              have hreads' := readsExactly_run hsymbols
              have hp : p + 17#32 + BitVec.ofNat 32 (totalOf counts) = p + BitVec.ofNat 32 (17 + totalOf counts) :=
                add_ofNat_add p 17 _
              have hsymbols' : ReadsExactly s (HuffRest s p rem) (p + 1#32) (16 + totalOf counts) :=
                (hreads.or (h17 ▸ hreads')).congr (huffRest_of_counts hcounts hcode)
              have hround' : ReadsExactly s (HuffRound s p rem) p (17 + totalOf counts) := by
                have h := hround hsymbols'
                rwa [← Nat.add_assoc] at h
              have hoff := offset_add (p := p) (start := start) (k := 17 + totalOf counts) (by omega)
              obtain ⟨k, htouched, hrest, hwhole⟩ := ih (u := u.setHuff h (huffOf (build counts).1 values))
                (p := p + BitVec.ofNat 32 (17 + totalOf counts)) (rem := rem - (17 + totalOf counts)) ⟨hu.cfg, hu.mem⟩
                (n + 1) (by omega) (by omega)
              rw [huffTables_commit hfuel hrem hid' hb hcounts' hcode ((hu.fetchBytes _ _).trans hsymbols), hp]
              refine ⟨17 + totalOf counts + k, ?_, hround'.nextRound (fun size => ⟨?_, fun hsize => ?_⟩) hrest,
                fun hstop => ?_⟩
              · rw [Nat.add_sub_cancel, htouched, hoff, Nat.add_assoc]
              · rintro ⟨_, e, hsize, _, hlen', hcounts'', _⟩
                obtain rfl := hsame _ hlen' hcounts''
                exact hsize
              · exact ⟨hrem, ⟨h, counts, values⟩, hsize, hbyte, hlen, hbytes, hcode, hvalues, hbytes'⟩
              · have := hwhole hstop
                omega

/-- The bytes the loop reaches: in the round behind some whole legal tables. -/
theorem loopReaches_huff_iff {s : State} {p a : Word} {rem : Nat} :
    LoopReaches (HuffRound s) (HuffNext s) p rem a ↔ ∃ es : List HuffEntry, huffSize es ≤ rem ∧
      HuffSegment s p es ∧ HuffRound s (p + BitVec.ofNat 32 (huffSize es)) (rem - huffSize es) a := by
  constructor
  · intro h
    induction h with
    | @here p rem a h => exact ⟨[], Nat.zero_le rem, trivial, by simpa [huffSize] using h⟩
    | @later p rem size a hnext _ ih =>
      obtain ⟨hrem, e, rfl, hid, hlen, hcounts, hcode, hlen', hvalues⟩ := hnext
      obtain ⟨htotal, hbuild, hroom⟩ := countsError_eq_none hcode
      obtain ⟨es, hle, hes, hround⟩ := ih
      have he : e.size ≤ rem := hroom
      refine ⟨e :: es, by rw [huffSize_cons]; omega, ⟨hid, hlen, hlen', htotal, hbuild, hcounts, hvalues, hes⟩, ?_⟩
      rwa [huffSize_cons, ← add_ofNat_add, ← Nat.sub_sub]
  · rintro ⟨es, hle, hes, hround⟩
    induction es generalizing p rem with
    | nil => exact .here (by simpa [huffSize] using hround)
    | cons e es ih =>
      obtain ⟨hid, hlen, hlen', htotal, hbuild, hcounts, hvalues, hes⟩ := hes
      rw [huffSize_cons] at hle hround
      have hroom : 17 + totalOf e.counts ≤ rem := Nat.le_trans (Nat.le_add_right e.size _) hle
      have hlegal : ¬(256 < totalOf e.counts ∨ (build e.counts).2 = false) := by simp [htotal, hbuild]
      have hcode := (countsError_of_legal rem hlegal).trans (if_neg (Nat.not_lt.2 hroom))
      refine .later ⟨by omega, e, rfl, hid, hlen, hcounts, hcode, hlen', hvalues⟩ (ih (by omega) hes ?_)
      rwa [← add_ofNat_add, ← Nat.sub_sub] at hround

/-! ### The whole load -/

theorem segmentLength_inj {s : State} {len len' : Nat} (h : SegmentLength s len) (h' : SegmentLength s len') :
    len = len' := by
  obtain ⟨hlt, ⟨-, hhigh⟩, -, hlow⟩ := h
  obtain ⟨hlt', ⟨-, hhigh'⟩, -, hlow'⟩ := h'
  have hhigh := congrArg BitVec.toNat (hhigh.symm.trans hhigh')
  have hlow := congrArg BitVec.toNat (hlow.symm.trans hlow')
  simp only [BitVec.toNat_ofNat] at hhigh hlow
  omega

theorem exists_segmentLength {s : State} {bs : List Byte} (h : fetchBytes s 2 s.srcAddr = .ok bs) :
    ∃ len, SegmentLength s len := by
  obtain ⟨hlen, hbs⟩ := fetchBytes_eq_ok_iff.1 h
  obtain ⟨high, low, rfl⟩ := List.length_eq_two.1 hlen
  obtain ⟨hhigh, hlow, -⟩ := hbs
  refine ⟨high.toNat * 256 + low.toNat, by omega, ?_, ?_⟩
  · have hb : BitVec.ofNat 8 ((high.toNat * 256 + low.toNat) / 256) = high := by bv_omega
    rwa [hb]
  · have hb : BitVec.ofNat 8 (high.toNat * 256 + low.toNat) = low := by bv_omega
    rwa [hb]

theorem fetchBytes_of_segmentLength {s : State} {len : Nat} (h : SegmentLength s len) :
    ∃ bs, fetchBytes s 2 s.srcAddr = .ok bs :=
  ⟨_, fetchBytes_of_bytesAre (bs := [_, _]) ⟨h.2.1, h.2.2, trivial⟩⟩

/-- A load has read the bytes it reaches: of the length field, and behind it those its loop reaches; all the segment
where it does not stop. -/
theorem loadSegment_ends {s : State} {least : Nat} {tables : Nat → LoadEnd} {round : Word → Nat → Word → Prop}
    {next : Word → Nat → Nat → Prop} {reach : Word → Prop} (hleast : 2 ≤ least)
    (hreach : ∀ a, reach a ↔ RunReaches s s.srcAddr 2 a ∨ ∃ len, SegmentLength s len ∧ least ≤ len ∧
      LoopReaches round next (s.srcAddr + 2#32) (len - 2) a)
    (hloop : ∀ rem < 65536, ∃ k, LoopEnds s s.srcAddr (LoopReaches round next (s.srcAddr + 2#32) rem)
      (s.srcAddr + 2#32) rem (tables rem) k) :
    ReadsExactly s reach s.srcAddr (loadSegment s least tables).touched ∧
      ∀ len, SegmentLength s len → (loadSegment s least tables).stop = none →
        (loadSegment s least tables).touched = len := by
  have htwo : (s.srcAddr + 2#32 - s.srcAddr).toNat = 2 := by bv_omega
  cases hbytes : fetchBytes s 2 s.srcAddr with
  | error e =>
    have hnone : ∀ len, ¬SegmentLength s len := fun len hlen => by
      obtain ⟨bs, hbs⟩ := fetchBytes_of_segmentLength hlen
      simp [hbytes] at hbs
    obtain ⟨m, hm, hstop, hreads⟩ := readsExactly_run_stop hbytes
    rw [loadSegment, hbytes]
    refine ⟨?_, fun len hlen => absurd hlen (hnone len)⟩
    have htouched : touchedAt s.srcAddr s.srcAddr e = m := by
      rw [touchedAt_of_stop hstop]
      bv_omega
    simp only [loadStop, htouched]
    exact hreads.congr fun a => (hreach a).trans (or_iff_left fun ⟨len, hlen, _⟩ => hnone len hlen)
  | ok bs =>
    have hreads := readsExactly_run hbytes
    obtain ⟨len, hlen⟩ := exists_segmentLength hbytes
    have hsame := fun len' (hlen' : SegmentLength s len') => segmentLength_inj hlen hlen'
    rw [loadSegment_of_length hlen]
    by_cases hshort : len < least
    · rw [if_pos hshort]
      refine ⟨?_, nofun⟩
      have htouched : touchedAt s.srcAddr (s.srcAddr + 2#32) (.error .segLength s.srcAddr) = 2 := htwo
      simp only [loadStop, htouched]
      exact hreads.congr fun a => (hreach a).trans
        (or_iff_left fun ⟨len', hlen', hle, _⟩ => absurd (hsame len' hlen' ▸ hle) (Nat.not_le.2 hshort))
    · rw [if_neg hshort]
      obtain ⟨k, htouched, hreads', hwhole⟩ := hloop (len - 2) (by have := hlen.1; omega)
      rw [htwo] at htouched
      refine ⟨?_, fun len' hlen' hstop => ?_⟩
      · rw [htouched]
        refine (hreads.or hreads').congr fun a => (hreach a).trans (or_congr_right ⟨?_, fun h => ?_⟩)
        · rintro ⟨len', hlen', -, h⟩
          rwa [hsame len' hlen']
        · exact ⟨len, hlen, Nat.not_lt.1 hshort, h⟩
      · rw [htouched, hwhole hstop, ← hsame len' hlen']
        omega

end Sys2Proof.Machine
end

section
/-! PROOF. What a host access meets: the footprint of every command, and the host's steps against it (20_memory R98,
70_reset R382 and R385). -/

namespace Sys2Proof.Machine

open Sys2Proof.Claims

/-! ### The bytes the loads come to read -/

theorem runReaches_two {s : State} {b a : Word} :
    RunReaches s b 2 a ↔ a = b ∨ (respond s.cfg b 1 = .normal ∧ a = b + 1#32) := by
  have hzero : ∀ b' : Word, ¬RunReaches s b' 0 a := fun b' ⟨_, hlt, _⟩ => absurd hlt (Nat.not_lt_zero _)
  have hone : RunReaches s (b + 1#32) 1 a ↔ a = b + 1#32 :=
    runReaches_succ.trans (or_iff_left fun ⟨_, _, h⟩ => hzero _ h)
  rw [runReaches_succ, hone]
  exact or_congr_right ⟨fun ⟨_, hx, h⟩ => ⟨hx.1, h⟩, fun ⟨hx, h⟩ => ⟨_, ⟨hx, rfl⟩, h⟩⟩

theorem loadReaches_dqt_iff {s : State} {a : Word} : LoadReaches s .loadDqt a ↔ RunReaches s s.srcAddr 2 a ∨
    ∃ len, SegmentLength s len ∧ 67 ≤ len ∧
      LoopReaches (QuantRound s) (QuantNext s) (s.srcAddr + 2#32) (len - 2) a := by
  have hp : ∀ n, s.srcAddr + 2#32 + BitVec.ofNat 32 (65 * n) = s.srcAddr + BitVec.ofNat 32 (2 + 65 * n) :=
    fun n => add_ofNat_add _ 2 _
  rw [runReaches_two, or_assoc, LoadReaches]
  refine or_congr_right (or_congr_right ⟨?_, ?_⟩)
  · rintro ⟨len, ts, hlen, hmore, hseg, hreach⟩
    refine ⟨len, hlen, by omega, loopReaches_quant_iff.2 ⟨ts, by omega, hseg, by omega, ?_⟩⟩
    rw [hp]
    exact hreach.imp_right fun ⟨q, got, hid, hlt, hgot, ha⟩ => ⟨q, hid, got, hlt, hgot, ha⟩
  · rintro ⟨len, hlen, hleast, hreach⟩
    obtain ⟨ts, hle, hseg, hrem, hround⟩ := loopReaches_quant_iff.1 hreach
    rw [hp] at hround
    exact ⟨len, ts, hlen, by omega, hseg,
      hround.imp_right fun ⟨q, hid, got, hlt, hgot, ha⟩ => ⟨q, got, hid, hlt, hgot, ha⟩⟩

theorem loadReaches_dht_iff {s : State} {a : Word} : LoadReaches s .loadDht a ↔ RunReaches s s.srcAddr 2 a ∨
    ∃ len, SegmentLength s len ∧ 19 ≤ len ∧
      LoopReaches (HuffRound s) (HuffNext s) (s.srcAddr + 2#32) (len - 2) a := by
  have hp : ∀ n, s.srcAddr + 2#32 + BitVec.ofNat 32 n = s.srcAddr + BitVec.ofNat 32 (2 + n) :=
    fun n => add_ofNat_add _ 2 _
  rw [runReaches_two, or_assoc, LoadReaches]
  refine or_congr_right (or_congr_right ⟨?_, ?_⟩)
  · rintro ⟨len, es, hlen, hmore, hseg, hreach⟩
    refine ⟨len, hlen, by omega, loopReaches_huff_iff.2 ⟨es, by omega, hseg, by omega, ?_⟩⟩
    rw [hp]
    refine hreach.imp_right fun ⟨h, counts, hid, hcounts, hrest⟩ => ⟨h, hid, ?_⟩
    obtain ⟨hlt, ha⟩ | ⟨h16, htotal, hbuild, hroom, hrun⟩ := hrest
    · exact .inl ⟨counts, hlt, hcounts, ha⟩
    · have hlegal : ¬(256 < totalOf counts ∨ (build counts).2 = false) := by simp [htotal, hbuild]
      exact .inr ⟨counts, h16, hcounts, (countsError_of_legal _ hlegal).trans (if_neg (by omega)), hrun⟩
  · rintro ⟨len, hlen, hleast, hreach⟩
    obtain ⟨es, hle, hseg, hrem, hround⟩ := loopReaches_huff_iff.1 hreach
    rw [hp] at hround
    refine ⟨len, es, hlen, by omega, hseg, hround.imp_right fun ⟨h, hid, hrest⟩ => ?_⟩
    obtain ⟨counts, hlt, hcounts, ha⟩ | ⟨counts, h16, hcounts, hcode, hrun⟩ := hrest
    · exact ⟨h, counts, hid, hcounts, .inl ⟨hlt, ha⟩⟩
    · obtain ⟨htotal, hbuild, hroom⟩ := countsError_eq_none hcode
      exact ⟨h, counts, hid, hcounts, .inr ⟨h16, htotal, hbuild, by omega, hrun⟩⟩

theorem loadDqtEnd_reads (s : State) : ReadsExactly s (LoadReaches s .loadDqt) s.srcAddr (loadDqtEnd s).touched ∧
    ∀ len, SegmentLength s len → (loadDqtEnd s).stop = none → (loadDqtEnd s).touched = len :=
  loadSegment_ends (by decide) (fun _ => loadReaches_dqt_iff) fun rem _ =>
    quantTables_ends ⟨rfl, rfl⟩ 0 le_rfl (by bv_omega)

theorem loadDhtEnd_reads (s : State) : ReadsExactly s (LoadReaches s .loadDht) s.srcAddr (loadDhtEnd s).touched ∧
    ∀ len, SegmentLength s len → (loadDhtEnd s).stop = none → (loadDhtEnd s).touched = len :=
  loadSegment_ends (by decide) (fun _ => loadReaches_dht_iff) fun rem _ =>
    huffTables_ends ⟨rfl, rfl⟩ 0 le_rfl (by bv_omega)

theorem touches_segmentReads {s : State} {e : LoadEnd} {a : Word} :
    Touches (segmentReads s e) a ↔ (a - s.srcAddr).toNat < e.touched := by
  simp [Touches, segmentReads]

/-- A load that answers a state with ERR clear has not stopped. -/
theorem stop_eq_none_of_next {e : LoadEnd} {t : State} (h : loadAnswer e = .next t) (ht : t.err = false) :
    e.stop = none := by
  unfold loadAnswer at h
  cases hstop : e.stop with
  | none => rfl
  | some stop =>
    rw [hstop] at h
    cases stop with
    | error code a => cases h; cases ht
    | sideEffect a => cases h

/-- What the footprint of a load is, of which `e` is the end. -/
theorem load_footprint {s : State} {i : Instr} {e : LoadEnd} (hfoot : footprint i s = ⟨segmentReads s e, []⟩)
    (hexec : exec i s = loadAnswer e) (hreads : ReadsExactly s (LoadReaches s i) s.srcAddr e.touched)
    (hwhole : ∀ len, SegmentLength s len → e.stop = none → e.touched = len) :
    (∀ a, Touches (footprint i s).reads a ↔ LoadReaches s i a ∧ respond s.cfg a 1 = .normal) ∧
      ∀ len t, SegmentLength s len → s.err = false → exec i s = .next t → t.err = false →
        ∀ a, Touches (footprint i s).reads a ↔ (a - s.srcAddr).toNat < len := by
  rw [hfoot]
  refine ⟨fun a => ?_, fun len t hlen _ ht herr a => ?_⟩
  · rw [touches_segmentReads, ← mem_bytesFrom_iff]
    exact (hreads a).symm
  · rw [touches_segmentReads, hwhole len hlen (stop_eq_none_of_next (hexec.symm.trans ht) herr)]

/-! ### The footprint of every command -/

theorem footprint_of_not_passes {s : State} {i : Instr} (h : ¬ProloguePasses s i) : footprint i s = ⟨[], []⟩ := by
  have hplanned : ∀ plan, planOf s i = some plan → footprint i s = ⟨[], []⟩ := fun plan hplan => by
    obtain ⟨p, hfoot, hp⟩ := footprint_of_planOf hplan
    rw [hfoot, planFootprint_not_pass (mt hp.1 h)]
  cases i with
  | nop | resetDc | restart | loadDqt | loadDht => exact absurd ⟨rfl, trivial, fun h => absurd rfl h, nofun⟩ h
  | decodeBlock comp d a =>
    cases hc : index3 comp with
    | none => rw [footprint, hc]
    | some c =>
      obtain ⟨p, hfoot, hp⟩ := footprint_decodeBlock (s := s) (d := d) (a := a) hc
      rw [hfoot, planFootprint_not_pass (mt hp.1 h)]
  | idct | upsample | ycc2rgb | cvt565To8888 | cvt8888To565 | blend => exact hplanned _ rfl

theorem footprint_of_plan_passes {s : State} {i : Instr} {plan : List Access} (h : ProloguePasses s i)
    (hplan : planOf s i = some plan) : footprint i s =
      ⟨(accessSequence s i).filter fun x => x.kind ≠ .write, (accessSequence s i).filter fun x => x.kind = .write⟩ := by
  obtain ⟨p, hfoot, hp⟩ := footprint_of_planOf hplan
  rw [hfoot, hp.2 h, planFootprint_pass, planOf_eq_accessSequence hplan]

theorem footprint_of_decodeBlock_passes {s : State} {comp : BitVec 2} {d a : Bool} {c : Fin 3}
    (h : ProloguePasses s (.decodeBlock comp d a)) (hc : index3 comp = some c) :
    footprint (.decodeBlock comp d a) s = ⟨decodeReads s c (dcSlot d) (acSlot a), decodePlan s⟩ := by
  obtain ⟨p, hfoot, hp⟩ := footprint_decodeBlock (s := s) (d := d) (a := a) hc
  rw [hfoot, hp.2 h, planFootprint_pass_append (fun _ => decodeReads_kind) fun _ => decodePlan_kind]

theorem footprint_writes_of_passes {s : State} {i : Instr} (h : ProloguePasses s i) :
    (footprint i s).writes = (accessSequence s i).filter fun x => x.kind = .write := by
  cases i with
  | nop | resetDc | restart | loadDqt | loadDht => rfl
  | decodeBlock comp d a =>
    obtain ⟨c, hc⟩ := exists_index3_of_legal h.1
    have hplan : decodePlan s = accessSequence s (.decodeBlock comp d a) := rfl
    rw [footprint_of_decodeBlock_passes h hc, ← hplan]
    exact (List.filter_eq_self.2 fun x hx => decide_eq_true (decodePlan_kind hx)).symm
  | idct | upsample | ycc2rgb | cvt565To8888 | cvt8888To565 | blend => rw [footprint_of_plan_passes h rfl]

theorem footprint_of_passes {s : State} {i : Instr} (h : ProloguePasses s i) :
    (footprint i s).writes = (accessSequence s i).filter (fun x => x.kind = .write) ∧
      (planOf s i ≠ none → (footprint i s).reads = (accessSequence s i).filter fun x => x.kind ≠ .write) ∧
      (i ∈ [.nop, .resetDc, .restart] → (footprint i s).reads = []) ∧
      ∀ comp d a c, i = .decodeBlock comp d a → index3 comp = some c →
        (∀ b r, decodeCoeffs s c (dcSlot d) (acSlot a) = .got b r → (footprint i s).reads = r.seen) ∧
        ∀ e seen, decodeCoeffs s c (dcSlot d) (acSlot a) = .stop e seen → (footprint i s).reads = seen := by
  refine ⟨footprint_writes_of_passes h, fun hplan => ?_, fun hi => ?_, ?_⟩
  · obtain ⟨plan, hplan⟩ := Option.ne_none_iff_exists'.1 hplan
    rw [footprint_of_plan_passes h hplan]
  · simp only [List.mem_cons, List.not_mem_nil, or_false] at hi
    obtain rfl | rfl | rfl := hi <;> rfl
  · rintro comp d a c rfl hc
    rw [footprint_of_decodeBlock_passes h hc]
    exact decodeReads_seen s c _ _

/-! ### Host accesses -/

theorem mem_writeBytes_iff_touches {xs : List Access} {b : Word} :
    b ∈ writeBytes xs ↔ Touches (xs.filter fun x => x.kind = .write) b := by
  simp only [mem_writeBytes, Touches, List.mem_filter, decide_eq_true_eq, Access.isWrite_iff, mem_bytesFrom_iff, and_assoc]

section
variable {s : State} {a : Word} {n : Nat} {ts : List Turn}
  (hout : ∀ b ∈ bytesFrom a n, 0x1000 ≤ (b - s.cfg.engineBase).toNat)
include hout

/-- A host write to memory, against the footprint of what is pending (70_reset R382). -/
theorem step_hostWrite (v : Nat) (hts : s.turns = .write a n v :: ts) :
    let u := { s with turns := ts }
    let meets := s.busy = true ∧ ((∃ b ∈ bytesFrom a n, Touches (pendingFootprint u).reads b) ∨
      ∃ b ∈ bytesFrom a n, Touches (pendingFootprint u).writes b)
    (meets → step s = .fault .hazardHostAccess) ∧
      (¬meets → step s = .next { u with mem := Memory.store s.mem n a v }) := by
  intro u meets
  have hstep : step s = if (s.busy && (hits a n (pendingFootprint u).reads || hits a n (pendingFootprint u).writes)) = true
      then .fault .hazardHostAccess else .next { u with mem := Memory.store s.mem n a v } :=
    (step_of_turn hts).trans (hostWrite_outside (s := u) hout v)
  have hmeets : (s.busy && (hits a n (pendingFootprint u).reads || hits a n (pendingFootprint u).writes)) = true ↔ meets := by
    rw [Bool.and_eq_true, Bool.or_eq_true, hits_iff_touches, hits_iff_touches]
  exact ⟨fun h => hstep.trans (if_pos (hmeets.2 h)), fun h => hstep.trans (if_neg (mt hmeets.1 h))⟩

/-- A host read of memory, against the write set of what is pending. -/
theorem step_hostRead (hts : s.turns = .read a n :: ts) :
    let u := { s with turns := ts }
    let meets := s.busy = true ∧ ∃ b ∈ bytesFrom a n, Touches (pendingFootprint u).writes b
    (meets → step s = .fault .hazardHostAccess) ∧
      (¬meets → step s = .next { u with hostData := Memory.load s.mem n a }) := by
  intro u meets
  have hstep : step s = if (s.busy && hits a n (pendingFootprint u).writes) = true
      then .fault .hazardHostAccess else .next { u with hostData := Memory.load s.mem n a } :=
    (step_of_turn hts).trans (hostRead_outside (s := u) hout)
  have hmeets : (s.busy && hits a n (pendingFootprint u).writes) = true ↔ meets := by
    rw [Bool.and_eq_true, hits_iff_touches]
  exact ⟨fun h => hstep.trans (if_pos (hmeets.2 h)), fun h => hstep.trans (if_neg (mt hmeets.1 h))⟩

end

theorem pendingFootprint_of_decode (s : State) : (∀ i, decode s.cmd = .ok i → pendingFootprint s = footprint i s) ∧
    ((∀ i, decode s.cmd ≠ .ok i) → pendingFootprint s = ⟨[], []⟩) := by
  refine ⟨fun i hi => by rw [pendingFootprint, hi], fun h => ?_⟩
  cases hi : decode s.cmd with
  | ok i => exact absurd hi (h i)
  | error e => rw [pendingFootprint, hi]

/-- Settles O17: the host's steps, memory byte by byte, and each command's footprint. -/
theorem hostAccessAgainstAPendingFootprint : Obligations.HostAccessAgainstAPendingFootprint := by
  refine ⟨fun s a n v ts hout => ⟨step_hostWrite hout v, step_hostRead hout⟩, fun m a => ?_,
    fun m a n v hn => ⟨fun hm i hi => Memory.readByte_store_byte a v hm hn hi, fun x hx => ?_⟩,
    fun a b n => mem_bytesFrom_iff, fun xs b => mem_writeBytes_iff_touches, pendingFootprint_of_decode,
    fun s i => ⟨rfl, footprint_of_not_passes, footprint_of_passes, ?_⟩⟩
  · have h0 := add_zero_word a
    simp only [h0]
    refine ⟨Memory.load_one m a, Memory.load_two m a, (Memory.load_four m a).trans ?_⟩
    omega
  · exact Memory.readByte_store_of_not_mem v fun hmem => Nat.not_le.2 (mem_bytesFrom_iff.1 hmem) hx
  · rintro (rfl | rfl)
    · exact load_footprint rfl rfl (loadDqtEnd_reads s).1 (loadDqtEnd_reads s).2
    · exact load_footprint rfl rfl (loadDhtEnd_reads s).1 (loadDhtEnd_reads s).2

end Sys2Proof.Machine
end
